-- ==== Sys2Proof/Word.lean ====
section
/-! DEFINITION. The word types of the panel and their plainest arithmetic (R5, R6, R7, R14). -/

namespace Sys2Proof

/-- One byte. -/
abbrev Byte := BitVec 8
/-- A 64-bit word: descriptors, registers, indices. -/
abbrev Word := BitVec 64

/-- Bits h:l of a number, right-aligned (R5, R14). -/
def bits (x h l : Nat) : Nat := (x >>> l) % 2 ^ (h + 1 - l)

/-- Bit n of a number (R5). -/
def bit (x n : Nat) : Bool := x.testBit n

/-- The number that a list of bytes spells in little-endian order (R6). -/
def leNat : List Byte → Nat
  | [] => 0
  | b :: bs => b.toNat + 256 * leNat bs

/-- The number that a list of bytes spells in network byte order (R7). -/
def beNat (bs : List Byte) : Nat := leNat bs.reverse

/-- The n low bytes of a number, little-endian (R6). -/
def leBytes : Nat → Nat → List Byte
  | 0, _ => []
  | n + 1, x => BitVec.ofNat 8 x :: leBytes n (x / 256)

/-- The n low bytes of a number, network byte order (R7). -/
def beBytes (n x : Nat) : List Byte := (leBytes n x).reverse

end Sys2Proof
end

