-- ==== Sys2Proof/Machine/Tab.lean ====
section
/-! DEFINITION. Sparse tables: a list of keyed entries in rising key order, for state the panel holds per tile, per
partition, per page or per connection. -/

namespace Sys2Proof.Machine

/-- Entries by key, keys strictly rising. -/
abbrev Tab (α : Type) := List (Nat × α)

/-- The entry of a key. -/
def Tab.find {α : Type} : Tab α → Nat → Option α
  | [], _ => none
  | e :: t, k => if e.1 = k then some e.2 else Tab.find t k

/-- The entry of a key, or the value an absent key stands for. -/
def Tab.getD {α : Type} (t : Tab α) (k : Nat) (d : α) : α := (t.find k).getD d

/-- Whether a key has an entry. -/
def Tab.has {α : Type} (t : Tab α) (k : Nat) : Bool := (t.find k).isSome

/-- The entry of a key set, kept in key order. -/
def Tab.set {α : Type} : Tab α → Nat → α → Tab α
  | [], k, v => [(k, v)]
  | e :: t, k, v =>
    if e.1 = k then (k, v) :: t
    else if k < e.1 then (k, v) :: e :: t
    else e :: Tab.set t k v

/-- The entry of a key removed. -/
def Tab.erase {α : Type} (t : Tab α) (k : Nat) : Tab α := t.filter fun e => decide (e.1 ≠ k)

/-- The entry of a key changed in place; an absent key stays absent. -/
def Tab.update {α : Type} (t : Tab α) (k : Nat) (f : α → α) : Tab α :=
  match t.find k with
  | some v => t.set k (f v)
  | none => t

/-- Every entry changed. -/
def Tab.mapVals {α : Type} (t : Tab α) (f : α → α) : Tab α := t.map fun e => (e.1, f e.2)

end Sys2Proof.Machine
end

