-- ==== Sys2Proof/Machine/HostState.lean ====
section
/-! DEFINITION. State of the host ports, the mailboxes and Vorla frames (chapter 12). -/

namespace Sys2Proof.Machine

/-- A Vorla frame as it stands on the wire (Table 12-1), with the Ethernet facts that R317 and R318 use. The opcode of a
received frame is the one of the command that carries it. -/
structure VFrame where
  /-- 0 HOST0, 1 HOST1. -/
  port : Nat := 0
  /-- Source MAC address. -/
  src : BitVec 48 := 0
  /-- The destination is the port's own MAC address; otherwise the broadcast address when bcast is set. -/
  toPort : Bool := true
  bcast : Bool := false
  /-- Untagged, with EtherType 0x88B5 (R317). -/
  etherOk : Bool := true
  /-- Bytes after the Ethernet header. -/
  length : Nat := 48
  magic : BitVec 16 := 0x5A4D
  version : BitVec 8 := 0x10
  flags : BitVec 8 := 0
  mailbox : BitVec 8 := 0
  reserved5 : BitVec 8 := 0
  seq : BitVec 32 := 0
  ack : BitVec 32 := 0
  tag : BitVec 32 := 0
  payloadLen : BitVec 32 := 0
  epoch : BitVec 16 := 0
  /-- Bytes 26-31. -/
  reserved26 : BitVec 48 := 0
  payload : List Byte := []
  trailer : List Byte := []
  deriving DecidableEq, Repr

/-- A frame the panel has put on a host port (R318, R319). -/
structure VWire where
  port : Nat
  dst : BitVec 48
  mailbox : Nat
  opcode : Nat
  flags : Nat
  seq : BitVec 32
  ack : BitVec 32
  tag : BitVec 32
  epoch : BitVec 16
  payload : List Byte
  trailer : List Byte
  deriving DecidableEq, Repr

/-- A frame to be sent, before it has a SEQUENCE. -/
structure VOut where
  opcode : Nat
  flags : Nat
  tag : BitVec 32
  payload : List Byte
  /-- Bytes from here on are sealed under K_DATA (R410). -/
  sealAt : Option Nat := none
  deriving DecidableEq, Repr

/-- An unacknowledged frame (R323). -/
structure VSent where
  wire : VWire
  /-- Present retransmission interval in ms. -/
  interval : Nat := 2
  deriving DecidableEq, Repr

/-- A mailbox key offer (R409). -/
structure MbxOffer where
  sess : BitVec 32
  t1 : List Byte
  dk : List Byte
  deriving DecidableEq, Repr

/-- Frames of one request received so far under MORE (R319, R337). -/
structure PartialReq where
  tag : BitVec 32
  opcode : Nat
  bytes : List Byte
  deriving DecidableEq, Repr

/-- A load that is open on a mailbox (R361). -/
structure OpenLoad where
  target : Nat
  length : Nat
  va : Nat
  /-- Chunks received, by offset. -/
  chunks : Tab (List Byte) := []
  deriving DecidableEq, Repr

/-- One mailbox (R316-R332). -/
structure Mailbox where
  /-- A session is open: HELLO was answered and it has neither expired nor closed. -/
  live : Bool := false
  kMac : Option (List Byte) := none
  kData : Option (List Byte) := none
  hostMac : BitVec 48 := 0
  hostPort : Nat := 0
  /-- Next SEQUENCE expected and next SEQUENCE to send (R322). -/
  rxNext : BitVec 32 := 0
  txNext : BitVec 32 := 0
  /-- FEATURE_EPOCH and the agreed bitmap (R324, R326). -/
  epoch : BitVec 16 := 0
  agreed : Word := 0
  unacked : List VSent := []
  waiting : List VOut := []
  /-- TAGs of requests whose reply has not been sent (Table 12-3, row 7). -/
  outstanding : List (BitVec 32) := []
  partials : List PartialReq := []
  /-- A sequenced frame of the host is not yet acknowledged (R322). -/
  ackDue : Bool := false
  offer : Option MbxOffer := none
  openLoad : Option OpenLoad := none
  /-- REF count before which no further null-key REPLY_ERROR is sent (R321). -/
  errAfter : Nat := 0
  /-- EVENTs dropped since the last EVENTS_LOST (R367). -/
  eventsLost : Nat := 0
  deriving DecidableEq, Repr

/-- Host port state (R316, Table 12-14). -/
structure HostPort where
  up : Bool := false
  disabled : Bool := false
  deriving DecidableEq, Repr

/-- Chapter 12 state outside partitions and jobs. -/
structure HostState where
  ports : Tab HostPort := []
  boxes : Tab Mailbox := []
  /-- Frames put on the host ports, newest first. -/
  sent : List VWire := []
  /-- COUNT of the next KEEPALIVE (R330). -/
  keepCount : BitVec 32 := 0
  nextSess : BitVec 32 := 1
  deriving DecidableEq, Repr

end Sys2Proof.Machine
end

