-- ==== Sys2Proof/Machine/MeshState.lean ====
section
/-! DEFINITION. State of the mesh: flits, routers and stitch links (chapter 8). -/

/-- What an error-correcting check finds (R194, R199, R229, R237). -/
inductive Sys2Proof.Ecc where
  | clean | corrected | failed
  deriving DecidableEq, Repr

namespace Sys2Proof.Machine

/-- Flit TYPE (Table 8-2). -/
inductive FlitType where
  | write | readReq | readRsp | rspList | chain | ctrl | ack | reserved
  deriving DecidableEq, Repr

/-- A requester of a merged read (Table 8-6). -/
structure Requester where
  x : Nat
  y : Nat
  line : Nat
  tag : Nat
  deriving DecidableEq, Repr

/-- A flit: its header (Table 8-2) and the part of its payload that a rule reads. -/
structure Flit where
  vc : Nat
  type : FlitType
  part : Nat
  dstX : Nat
  dstY : Nat
  srcX : Nat
  srcY : Nat
  line : Nat := 0
  fence : Bool := false
  cipher : Bool := false
  last : Bool := true
  tag : Nat := 0
  /-- READ_REQ and RSP_LIST: TARGET, KEY, NOMERGE and the requesters (Table 8-6). -/
  target : Nat := 0
  key : Nat := 0
  noMerge : Bool := false
  reqs : List Requester := []
  /-- WRITE and READ_RSP: the 256 bytes of the block. -/
  data : List Byte := []
  /-- Lines written under the line mask (R194): which of the four lines a WRITE carries. -/
  lines : Nat := 15
  /-- A reserved byte, FLAGS bits 7:1 or an entry beyond COUNT of the payload of Table 8-6 is not zero. -/
  extra : Bool := false
  /-- Marked poisoned by a link that could not correct a payload word (R199). -/
  poisoned : Bool := false
  /-- Port traffic on its way to a port, which routes by R220: the PORT_ID. -/
  toPort : Option Nat := none
  /-- What the link it arrived over found in its payload words, and whether it could not correct the header (R199). -/
  link : Ecc := .clean
  headLost : Bool := false
  /-- READ_REQ: what the owner's SRAM read finds (R194). -/
  ecc : Ecc := .clean
  deriving DecidableEq, Repr

/-- Output ports of a router (R202). -/
inductive Out where
  | here | north | south | east | west
  deriving DecidableEq, Repr

/-- A flit in flight: the router it reaches next and the output it left the last one over, none where a unit of that router sent it. -/
structure Moving where
  at_ : Nat × Nat
  last : Out
  flit : Flit
  deriving DecidableEq, Repr

/-- One router (Tables 8-9 and 8-10, R209, R211). -/
structure Router where
  /-- ROUTER_CTRL. -/
  ctrl : BitVec 32 := 0x60
  merges : BitVec 24 := 0
  unmerges : BitVec 24 := 0
  hwm : BitVec 6 := 0
  /-- READ_REQs waiting for an output, oldest first (R209). -/
  waiting : List Flit := []
  /-- Fork buffer, oldest first, at most 32 entries: the output and the copy (R211). -/
  fork : List (Out × Flit) := []
  /-- Reissue queue, at most 16 entries (R211). -/
  reissue : List Flit := []
  deriving DecidableEq, Repr

/-- One stitch link (R200, R201, R215). -/
structure Stitch where
  lanes : Nat := 0
  disabled : Bool := false
  /-- Flits replayed since device reset. -/
  replays : Nat := 0
  deriving DecidableEq, Repr

/-- Chapter 8 state outside tiles. -/
structure MeshState where
  routers : Tab Router := []
  links : Tab Stitch := []
  /-- Flits in flight, oldest first: the order of one source, destination and VC is the list's (R203). -/
  flight : List Moving := []
  /-- Bring-up has set ROUTER_CTRL.VC3_SHARE by Table 8-7 (R221). -/
  shared : Bool := false
  /-- Background scrub position of each tile (R194), by physical tile. -/
  scrub : Tab Nat := []
  deriving DecidableEq, Repr

end Sys2Proof.Machine
end

