-- ==== Sys2Proof/Machine/TribState.lean ====
section
/-! DEFINITION. State of Tributary, the scale-out transport (chapter 11). -/

namespace Sys2Proof.Machine

/-- A Tributary frame (Table 11-3), with the facts of its carriage that R287, R294 and R309 use. TYPE is the one of the
command that carries it. -/
structure TFrame where
  /-- PORT_ID it arrives at (Table 12-9). -/
  port : Nat := 0
  /-- FCS, IPv6 and UDP checks (R294); the UDP checksum. -/
  udpOk : Bool := true
  /-- ECN congestion mark, or a receive buffer more than half full (R309). -/
  ce : Bool := false
  version : BitVec 8 := 1
  dstPart : BitVec 8 := 0
  srcPart : BitVec 8 := 0
  srcPanel : BitVec 16 := 0
  dstPanel : BitVec 16 := 0
  context : BitVec 32 := 0
  seq : BitVec 32 := 0
  ack : BitVec 32 := 0
  flags : BitVec 16 := 0
  len : BitVec 16 := 0
  xmit : BitVec 16 := 0
  keyId : BitVec 8 := 0
  connIx : BitVec 8 := 0
  reserved : BitVec 32 := 0
  /-- Ciphertext and 16-byte tag (R293). -/
  body : List Byte := []
  deriving DecidableEq, Repr

/-- What Table 11-2 puts around a frame the panel sends. -/
structure Carriage where
  dstMac : BitVec 48 := 0
  srcMac : BitVec 48 := 0
  pcp : Nat := 0
  vid : Nat := 0
  /-- IPv6 traffic class: DSCP and ECN. -/
  dscp : Nat := 0
  ecn : Nat := 0
  flow : Nat := 0
  hopLimit : Nat := 0
  /-- IPv6 addresses, and the UDP header. -/
  src : BitVec 128 := 0
  dst : BitVec 128 := 0
  udpSrc : BitVec 16 := 0
  udpDst : BitVec 16 := 0
  checksum : BitVec 16 := 0
  deriving DecidableEq, Repr

/-- A frame the panel has sent: the header fields, its TYPE, the sealed body and its carriage. -/
structure TWire where
  port : Nat
  type : Nat
  dstPart : Nat
  srcPart : Nat
  srcPanel : Nat
  dstPanel : Nat
  context : BitVec 32
  seq : BitVec 32
  ack : BitVec 32
  flags : Nat
  xmit : Nat
  keyId : Nat
  connIx : Nat
  body : List Byte
  carriage : Carriage := {}
  deriving DecidableEq, Repr

/-- A frame not yet acknowledged, in the retransmission buffer (R299). -/
structure TSent where
  seq : BitVec 32
  type : Nat
  context : BitVec 32
  flags : Nat
  /-- Plain payload. -/
  payload : List Byte
  xmit : Nat := 0
  /-- Rotation index of its key (R413). -/
  rot : Nat := 0
  /-- Present timeout in microseconds (R299). -/
  timeout : Nat := 100
  /-- Higher SEQs acknowledged while it is not, and the REF count of its last fast retransmission. -/
  passed : Nat := 0
  fastAt : Option Nat := none
  /-- REF count of the first transmission. -/
  sentAt : Nat := 0
  deriving DecidableEq, Repr

/-- A message being received (R294, R296). -/
structure RxMsg where
  type : Nat
  /-- Frames that have arrived: OFFSET and bytes. -/
  parts : Tab (List Byte) := []
  /-- Bytes of the message, once a DATA header has named them. -/
  total : Option Nat := none
  channel : Nat := 0
  mcast : Bool := false
  /-- Every frame is written. -/
  whole : Bool := false
  /-- Complete in the sense of R296. -/
  complete : Bool := false
  deriving DecidableEq, Repr

/-- A message being sent (R295, R304). -/
structure TxMsg where
  serial : Nat
  /-- Tile and slot of the ferry that sent it; none for CHAIN and HALO. -/
  ferry : Option (Nat × Nat) := none
  deriving DecidableEq, Repr

/-- One connection (R289-R300, R310). -/
structure Conn where
  part : Nat
  peer : Nat
  peerPart : Nat
  ix : Nat
  /-- PORT_ID of the local share port. -/
  port : Nat
  mpj : BitVec 32
  win : Nat
  share : Nat
  /-- Rotation index in force for sending and for receiving (R413), and the link secret. -/
  rotTx : Nat := 0
  rotRx : Nat := 0
  secret : List Byte := []
  /-- First SEQ received under the next rotation index (R413). -/
  rotFirst : Option (BitVec 32) := none
  /-- OPEN of this side acknowledged, and the peer's OPEN received (R289). -/
  openAcked : Bool := false
  openGot : Bool := false
  peerEpoch : BitVec 32 := 0
  peerPos : Nat := 0
  /-- Sender side. -/
  seq : BitVec 32 := 0
  unacked : List TSent := []
  waiting : List TSent := []
  serial : Nat := 0
  peerHorizon : Nat := 0
  sending : List TxMsg := []
  /-- SRTT and RTTVAR in nanoseconds, RTO in microseconds (R299). -/
  srtt : Option Nat := none
  rttvar : Nat := 0
  rto : Nat := 100
  /-- Receiver side: cumulative SEQ, those received beyond it, contexts. -/
  cum : BitVec 32 := 0
  above : List (BitVec 32) := []
  horizon : Nat := 0
  rx : Tab RxMsg := []
  ceCount : Nat := 0
  rxCount : Nat := 0
  /-- Frames not yet acknowledged (R298). -/
  ackDue : Nat := 0
  /-- REF count of the last ACK frame (R298). -/
  ackAt : Option Nat := none
  /-- Rate control (R310), rates in Gbit/s. -/
  rate : Rat := 0
  target : Rat := 0
  alpha : Rat := 1
  line : Rat := 0
  calm : Nat := 0
  /-- REF count of the last cut. -/
  lastCut : Nat := 0
  /-- LEAVE sent, and the peer's JOB_END received: closed once both sides' frames are acknowledged (R291, R313). -/
  leaving : Bool := false
  left : Bool := false
  deriving DecidableEq, Repr

/-- One scale-out port (R285, R314). -/
structure TPort where
  cfg : Word := 0xC0E2000060320F00
  gateway : BitVec 48 := 0
  up : Bool := false
  disabled : Bool := false
  /-- The bulk queue's deficit round robin: the partition whose turn it is, and the bytes each may still send in its turn (R305). -/
  turn : Nat := 0
  deficit : Tab Nat := []
  deriving DecidableEq, Repr

/-- Chapter 11 state. -/
structure TribState where
  ports : Tab TPort := []
  conns : List Conn := []
  /-- Frames put on the wire, newest first. -/
  sent : List TWire := []
  /-- Neighbor Advertisements sent, newest first: the port and the Ethernet destination (R286). -/
  adverts : List (Nat × BitVec 48) := []
  /-- Panels declared lost that have not sent a fresh OPEN (R312). -/
  lost : List Nat := []
  deriving DecidableEq, Repr

end Sys2Proof.Machine
end

