-- ==== Sys2Proof/Syntax.lean ====
section
/-! DEFINITION. The commands of the panel: one constructor per row of the opcode table. A command is an instruction that a
tile dispatches, a frame that arrives, an event on a pin or a supply, or an event of one of the panel's own units or timers.
Physical facts that the panel only observes (an ECC outcome, a temperature, a link state) are operands. -/

namespace Sys2Proof

open Sys2Proof.Machine

/-- Registers by name, for a write that has no row of its own (R9). -/
inductive RegId where
  | fpStatus (tile : Nat) | accStatus (tile : Nat) | accCtrl (tile : Nat)
  | riffleSeedHi (tile : Nat) | riffleSeedLo (tile : Nat) | riffleStatus (tile : Nat)
  | seqStatus (tile : Nat) | seqProgress (tile : Nat) | seqConflict (tile : Nat) | drawProgress (tile : Nat)
  | ferryStatus (tile : Nat) | eyepiece (tile : Nat)
  | routerCtrl (x y : Nat) | routerCount (x y : Nat)
  | census (part : Nat) | meridian (part : Nat)
  | tribCfg (port : Nat)
  | hwStatus | hwPool | pwrStatus | diePwr (die : Nat) | resetCause | spillway
  | persistent (index : Nat)
  deriving DecidableEq, Repr

/-- What is clocked into the test port (R400, R502). -/
inductive Jtag where
  | bypass
  | idcode
  /-- BLANK to PROVISIONED with the certificate (Table 14-3). -/
  | provision (cert : List Byte)
  /-- PROVISIONED to FIELD with OPERATOR_KD (Table 14-3). -/
  | toField (operatorKd : List Byte)
  /-- To SCRAPPED (Table 14-3). -/
  | scrap
  /-- Sheldo's firmware region (chapter 14, opening). -/
  | firmware (image : List Byte)
  deriving DecidableEq, Repr

/-- What the checks on the pairs, the counters and the adder tree find as an issue retires (R87, Table 17-2). -/
inductive ArrayCheck where
  | pass | accParity | termMismatch | sumResidue
  deriving DecidableEq, Repr

/-- A tile whose oldest issue retires, and what the checks of that issue find (R87). -/
structure RetireAt where
  tile : Nat
  check : ArrayCheck := .pass
  deriving DecidableEq, Repr

/-- A tile with a DRAW, and how many of its rows are drawn before the next thing happens to the panel (R191). -/
structure DrawAt where
  tile : Nat
  rows : Nat
  deriving DecidableEq, Repr

/-- The commands. -/
inductive Instr where
  /-- END (R360): Tile dispatches END, the last instruction of its stream, which marks the stream done. -/
  | endStream (tile : Nat)
  /-- MMA (R355): Array multiply instruction issues m products per issue over k from K_BASE into the cell pairs. -/
  | mma (tile : Nat) (w0 : Word) (w1 : Word)
  /-- RETIRE (R62): An array issue ticket leaves stage 7 and retires, updating TERM_CNT and ACC_LONG. -/
  | retire (tile : RetireAt)
  /-- SPILL_COMBINE (R68): The vector engine finishes combining the spill buffer into the spill slot by chain_combine. -/
  | spillCombine (tile : Nat)
  /-- ACC_LD (R81): Accumulator load converts a 64 x 64 tile into the cell pairs as an issue, clearing counters and the spill slot. -/
  | accLd (tile : Nat) (w0 : Word)
  /-- DRAIN (R78): Drain instruction is dispatched, takes a shadow buffer and waits for its watched ticket. -/
  | drain (tile : Nat) (stepIdx : Bool) (w0 : Word) (w1 : Word) (w2 : Word)
  /-- DRAIN_DONE (R80): The drain port writes the last result row with fused operation and rounding, and frees its shadow buffer. -/
  | drainDone (tile : Nat)
  /-- ACC_CTRL (R71): Instruction writes ACC_CTRL, which applies to every later issue and drain in stream order. -/
  | accCtrl (tile : Nat) (v : BitVec 32)
  /-- CHAIN (R99): Chain instruction enters a chain-queue entry and sends its ready token toward the head. -/
  | chainOp (tile : Nat) (w0 : Word) (w1 : Word) (w2 : Word)
  /-- READY_TOKEN (R103): A VC0 ready token arrives at a chain member from its downstream member. -/
  | readyToken (tile : Nat) (chain : BitVec 32) (at_ : Word)
  /-- LEG_START (R103): A leg starts once every member has dispatched and any panel inbox holds the whole incoming result. -/
  | legStart (tile : Nat)
  /-- CHAIN_FLIT (R101): A VC1 running-result flit arrives at a member, which checks the lead word, folds its partials and forwards or writes. -/
  | chainFlit (tile : Nat)
  /-- RAW (R123): VRAND with DIST RAW writes raw Riffle items of width b, packed. -/
  | rawBits (tile : Nat) (stepIdx : Bool) (w0 : Word) (w1 : Word) (w2 : Word) (w3 : Word)
  /-- UNIF01 (R123): VRAND with DIST UNIF01 writes FP32 uniforms in [0, 1). -/
  | unif01 (tile : Nat) (stepIdx : Bool) (w0 : Word) (w1 : Word) (w2 : Word) (w3 : Word)
  /-- UNIF_OPEN (R123): VRAND with DIST UNIF_OPEN writes FP32 uniforms in (0, 1). -/
  | unifOpen (tile : Nat) (stepIdx : Bool) (w0 : Word) (w1 : Word) (w2 : Word) (w3 : Word)
  /-- UNIF01_64 (R123): VRAND with DIST UNIF01_64 writes FP64 uniforms in [0, 1). -/
  | unif0164 (tile : Nat) (stepIdx : Bool) (w0 : Word) (w1 : Word) (w2 : Word) (w3 : Word)
  /-- UINT_BELOW (R123): VRAND with DIST UINT_BELOW writes integers below PARAM. -/
  | uintBelow (tile : Nat) (stepIdx : Bool) (w0 : Word) (w1 : Word) (w2 : Word) (w3 : Word)
  /-- BERNOULLI (R123): VRAND with DIST BERNOULLI writes 1 with probability PARAM / 65,536. -/
  | bernoulli (tile : Nat) (stepIdx : Bool) (w0 : Word) (w1 : Word) (w2 : Word) (w3 : Word)
  /-- NORMAL (R124): VRAND with DIST NORMAL writes standard normal variates by table interpolation. -/
  | normalDraw (tile : Nat) (stepIdx : Bool) (w0 : Word) (w1 : Word) (w2 : Word) (w3 : Word)
  /-- TRUNC_NORMAL (R124): VRAND with DIST TRUNC_NORMAL writes normal variates truncated by the PARAM limit. -/
  | truncNormal (tile : Nat) (stepIdx : Bool) (w0 : Word) (w1 : Word) (w2 : Word) (w3 : Word)
  /-- EXPONENTIAL (R123): VRAND with DIST EXPONENTIAL writes rn32(-ln v). -/
  | exponentialDraw (tile : Nat) (stepIdx : Bool) (w0 : Word) (w1 : Word) (w2 : Word) (w3 : Word)
  /-- GUMBEL (R123): VRAND with DIST GUMBEL writes rn32(-ln y) with y = rn32(-ln v). -/
  | gumbelDraw (tile : Nat) (stepIdx : Bool) (w0 : Word) (w1 : Word) (w2 : Word) (w3 : Word)
  /-- WHOLE (R178): DRAW in phase WHOLE selects, normalises and draws each row in one tile and writes result and sequence records. -/
  | wholeRow (tile : DrawAt) (w0 : Word) (w1 : Word) (w2 : Word) (w3 : Word)
  /-- LOCAL (R177): DRAW in phase LOCAL writes one candidate list or entry per row of its segment. -/
  | localRow (tile : DrawAt) (w0 : Word) (w1 : Word) (w2 : Word) (w3 : Word)
  /-- FINAL (R178): DRAW in phase FINAL draws from merged lists or entries and writes result and sequence records. -/
  | finalRow (tile : DrawAt) (w0 : Word) (w1 : Word) (w2 : Word) (w3 : Word)
  /-- COPY (R246): FERRY with descriptor OP COPY loads and checks the descriptor and starts moving or converting elements. -/
  | ferryCopy (tile : Nat) (stepIdx : Bool) (w0 : Word)
  /-- FILL (R246): FERRY with descriptor OP FILL loads and checks the descriptor and starts writing FILL_VALUE to every element. -/
  | ferryFill (tile : Nat) (stepIdx : Bool) (w0 : Word)
  /-- SU_RUN (R150): Starts the anneal sequencer: copies the control block, runs CHECK and PRIME. -/
  | suRun (tile : Nat) (w0 : Word)
  /-- EXPORT (R163): A VC2 export state flit arrives in the receiver's staging half. -/
  | exportFlit (tile : Nat) (src : Nat)
  /-- END_MARKER (R161): An END marker arrives from a peer for a colour step. -/
  | endMarker (tile : Nat) (src : Nat)
  /-- STAGING_COPY (R162): When END from every peer has arrived, the tile copies the staging half into halo and B lines and begins the next step. -/
  | stagingCopy (tile : Nat)
  /-- ADD (R357): VOP ADD computes a + b rounded once. -/
  | addElems (tile : Nat) (stepIdx : Bool) (w0 : Word) (w1 : Word) (w2 : Word) (w3 : Word)
  /-- SUB (R357): VOP SUB computes a - b rounded once. -/
  | subElems (tile : Nat) (stepIdx : Bool) (w0 : Word) (w1 : Word) (w2 : Word) (w3 : Word)
  /-- MUL (R357): VOP MUL computes a x b rounded once. -/
  | mulElems (tile : Nat) (stepIdx : Bool) (w0 : Word) (w1 : Word) (w2 : Word) (w3 : Word)
  /-- FMA (R53): VOP FMA computes a x b + c rounded once. -/
  | fma (tile : Nat) (stepIdx : Bool) (w0 : Word) (w1 : Word) (w2 : Word) (w3 : Word)
  /-- MAX (R357): VOP MAX selects the operand ranked first by the MAXI order. -/
  | maximum (tile : Nat) (stepIdx : Bool) (w0 : Word) (w1 : Word) (w2 : Word) (w3 : Word)
  /-- MIN (R357): VOP MIN selects the operand ranked first by the MINI order. -/
  | minimum (tile : Nat) (stepIdx : Bool) (w0 : Word) (w1 : Word) (w2 : Word) (w3 : Word)
  /-- CVT (R357): VOP CVT converts a into DST_FMT. -/
  | cvt (tile : Nat) (stepIdx : Bool) (w0 : Word) (w1 : Word) (w2 : Word) (w3 : Word)
  /-- CADD (R89): VOP CADD combines FP32C pairs by chain_combine. -/
  | cadd (tile : Nat) (stepIdx : Bool) (w0 : Word) (w1 : Word) (w2 : Word) (w3 : Word)
  /-- DIV (R357): VOP DIV computes a / b rounded once. -/
  | divElems (tile : Nat) (stepIdx : Bool) (w0 : Word) (w1 : Word) (w2 : Word) (w3 : Word)
  /-- SQRT (R357): VOP SQRT computes the square root of a rounded once. -/
  | sqrtElems (tile : Nat) (stepIdx : Bool) (w0 : Word) (w1 : Word) (w2 : Word) (w3 : Word)
  /-- EXP (R357): VOP EXP computes e to the a rounded once. -/
  | expElems (tile : Nat) (stepIdx : Bool) (w0 : Word) (w1 : Word) (w2 : Word) (w3 : Word)
  /-- LOG (R357): VOP LOG computes ln a rounded once. -/
  | logElems (tile : Nat) (stepIdx : Bool) (w0 : Word) (w1 : Word) (w2 : Word) (w3 : Word)
  /-- BARRIER (R207): Tile issues BARRIER and joins the partition's gather. -/
  | barrier (tile : Nat)
  /-- STEP (R267): Tile issues STEP, a barrier that advances MERIDIAN at release. -/
  | stepBarrier (tile : Nat)
  /-- BARRIER_ARRIVE (R511): An ordered ARRIVE CTRL flit reaches the next tile of the gather, which checks the kind and passes it on. -/
  | barrierArrive (tile : Nat) (src : Nat)
  /-- BARRIER_RELEASE (R207): A RELEASE CTRL flit reaches a tile, which completes its BARRIER or STEP and passes it on. -/
  | barrierRelease (tile : Nat)
  /-- LOOP (R358): LOOP opens a body that runs COUNT times. -/
  | loopOpen (tile : Nat) (w0 : Word)
  /-- ENDLOOP (R358): ENDLOOP ends an iteration of the matching loop. -/
  | loopClose (tile : Nat)
  /-- WAIT_FERRY (R356): Completes once the slot's STATE is DONE or ELEM_DONE reaches ELEM_MIN. -/
  | waitFerry (tile : Nat) (w0 : Word)
  /-- RIFFLE_WORD (R127): A Riffle lane delivers a word into the buffer 50 cycles after its start, releasing waiting consumers. -/
  | riffleWord (tile : Nat) (stream : BitVec 32) (index : Word)
  /-- WRITE (R217): A WRITE flit reaches its destination router, which checks the fence and writes tile SRAM. -/
  | writeFlit (x y : Nat) (flit : Flit)
  /-- READ_REQ (R209): A READ_REQ reaches a router, merges into a waiting request or moves on, and the owner answers with one read. -/
  | readReq (x y : Nat) (flit : Flit)
  /-- RSP_LIST (R210): A RSP_LIST pair reaches a router, which groups requesters by output and forks, buffers or unmerges. -/
  | rspList (x y : Nat) (flit : Flit)
  /-- READ_RSP (R210): A READ_RSP reaches its requester and is written to its LINE. -/
  | readRsp (x y : Nat) (flit : Flit)
  /-- FORK_BUFFER (R211): A buffered fork copy leaves when its output gains a credit. -/
  | forkBuffer (x y : Nat)
  /-- REISSUE (R211): The reissue queue injects an unmerged single READ_REQ toward the owner. -/
  | reissue (x y : Nat)
  /-- FENCE_ACK (R203): An ACK for a FENCE flit reaches its source, releasing ordered CTRL flits. -/
  | fenceAck (x y : Nat) (flit : Flit)
  /-- STITCH_CRC (R201): A stitch CRC error replays the flit and every later buffered flit. -/
  | stitchCrc (link : Nat) (flitsSent : Nat)
  /-- STITCH_LANE (R201): A stitch lane fails and is repaired between flits, or a third failure disables the link. -/
  | stitchLane (link : Nat)
  /-- SRAM_SCRUB (R194): The background scrub reads the next tile SRAM line in an idle bank slot. -/
  | sramScrub (x y : Nat) (ecc : Ecc)
  /-- HBM_REQUEST (R227): An HBM controller serves a read, write or parity update for a block in arrival order. -/
  | hbmRequest (tile : Nat) (slot : Nat) (ecc : Ecc)
  /-- REFRESH (R228): The controller refreshes a bank at the interval set by stack temperature. -/
  | refreshBank (site temp : Nat)
  /-- PATROL_SCRUB (R229): The patrol scrub reads the next HBM block in an idle slot. -/
  | patrolScrub (site : Nat) (ecc : Ecc)
  /-- PAGE_WALK (R237): A TLB miss walk returns the level-1 and level-2 entries and translates or faults. -/
  | pageWalk (tile : Nat) (slot : Nat) (ecc : Ecc)
  /-- LOCK_RETRY (R238): Every 1,024 cycles a ferry held on LOCK walks the page again. -/
  | lockRetry (tile : Nat) (slot : Nat)
  /-- FIRST_TOUCH (R242): Firmware maps a first-touch page from the reserve and releases the descriptor, which restarts at ELEM_DONE. -/
  | firstTouch (tile : Nat) (slot : Nat)
  /-- PTE_CHANGE (R240): Firmware locks a page, invalidates it in every ferry and, once all acknowledge, writes the new PTE and unlocks. -/
  | pteChange (part vpn : Nat) (pte : Word)
  /-- INVALIDATE_ACK (R240): A ferry acknowledges a page invalidation once every request through the old entry has been accepted. -/
  | invalidateAck (tile : Nat) (vpn : Nat)
  /-- HELLO (R326): Host opens or restarts a session and the panel answers FEATURES with the agreed bitmap and new epoch. -/
  | hello (f : VFrame)
  /-- KEEPALIVE (R323): Host KEEPALIVE frame keeps a session alive. -/
  | keepalive (f : VFrame)
  /-- BYE (R331): Host closes its session on a mailbox and the panel destroys the mailbox key. -/
  | byeFrame (f : VFrame)
  /-- LOAD_BEGIN (R361): Opens a load of a Dreter image, program or pages. -/
  | loadBegin (f : VFrame)
  /-- LOAD_CHUNK (R361): Carries one chunk of the open load at OFFSET. -/
  | loadChunk (f : VFrame)
  /-- LOAD_END (R361): Closes the load and checks and installs the image or pages. -/
  | loadEnd (f : VFrame)
  /-- FW_STAGE (R380): Checks a staged Dreter image and reports its SVN, BUILD_ID and digest. -/
  | fwStage (f : VFrame)
  /-- FW_ACTIVATE (R381): Starts an activation of the staged image, entering WAITING. -/
  | fwActivate (f : VFrame)
  /-- CANCEL (R381): FW_ACTIVATE with CANCEL ends an activation in WAITING. -/
  | activateCancel (f : VFrame)
  /-- COMMIT (R384): When the commit condition holds, the hand-over block is written and Sheldo writes FW_COMMIT. -/
  | commitPoint
  /-- HANDOVER (R386): The resident loader finishes copying and starts the new image, which replies DONE. -/
  | handover (good : Bool)
  /-- ACTIVATION_DEADLINE (R385): DEADLINE_MS expires before the commit point and the activation aborts. -/
  | activationDeadline
  /-- MBX_OFFER (R409): Starts a mailbox key exchange with a fresh ML-KEM key pair. -/
  | mbxOffer (f : VFrame)
  /-- MBX_FINISH (R409): Completes the mailbox key exchange and derives K_MAC and K_DATA. -/
  | mbxFinish (f : VFrame)
  /-- OFFER_EXPIRY (R409): A mailbox offer expires after 10 s. -/
  | offerExpiry (mailbox : Nat)
  /-- LINK_OFFER (R411): Starts a link session with a peer panel and returns a signed offer. -/
  | linkOffer (f : VFrame)
  /-- LINK_ACCEPT (R411): Verifies a peer's offer, encapsulates and returns a signed accept. -/
  | linkAccept (f : VFrame)
  /-- LINK_FINISH (R411): Verifies the accept, decapsulates and records the link secret. -/
  | linkFinish (f : VFrame)
  /-- LINK_DROP (R411): Destroys a link session and ends jobs connected to that peer. -/
  | linkDrop (f : VFrame)
  /-- QUOTE (R405): Returns a signed quote body, optionally with a release encapsulation key. -/
  | quoteBody (f : VFrame)
  /-- CERTS (R403): Returns the device certificate. -/
  | certs (f : VFrame)
  /-- LIFECYCLE (R401): Verifies a life-cycle token and performs the transition with reset and wipe. -/
  | lifecycle (f : VFrame)
  /-- RELEASE_KEY_EXPIRY (R407): A release decapsulation key is destroyed 600 s after its creation. -/
  | releaseKeyExpiry (part : Nat)
  /-- KEY_ROTATE (R416): Loads a new memory key generation and starts the re-encryption sweep. -/
  | keyRotate (f : VFrame)
  /-- SWEEP_BATCH (R416): The sweep engine finishes re-encrypting a batch of up to 8 pages. -/
  | sweepBatch (part : Nat) (good : Bool)
  /-- ROTATION_DONE (R416): Once all pages are swept and old-generation flights are zero, the old slot is destroyed and the rotation replies. -/
  | rotationDone (part : Nat)
  /-- WEIGHT_BIND (R417): Unwraps the weight key, decrypts the weight container and seals the partition. -/
  | weightBind (f : VFrame)
  /-- PART_CREATE (R333): Creates a partition: tiles zeroed, page tables built, port share granted, mailbox opened. -/
  | partCreate (f : VFrame)
  /-- PART_DESTROY (R335): Ends jobs, pairings and streams, destroys keys, zeroes memory and closes the mailbox. -/
  | partDestroy (f : VFrame)
  /-- PART_QUERY (R336): Returns partition, spare, quad, stitch and parity-group records. -/
  | partQuery (f : VFrame)
  /-- JOB_SUBMIT (R339): Journals a job with its seed and answers JOB_ACCEPTED, or reports a duplicate. -/
  | jobSubmit (f : VFrame)
  /-- JOB_START (R340): The partition starts its next accepted job once the previous completion is journaled and it is not held. -/
  | jobStart (part : Nat)
  /-- JOB_DONE (R360): When every tile has dispatched END and every descriptor and leg has finished, the completion is journaled and sent. -/
  | jobDone (part : Nat)
  /-- JOB_CANCEL (R342): Cancels a queued or running job, which ends ST_ABORTED. -/
  | jobCancel (f : VFrame)
  /-- PREEMPT (R347): Starts bringing the partition to rest and holds its queue. -/
  | preempt (f : VFrame)
  /-- AT_REST (R252): All units of the partition have stopped and the die stewards have copied tile state into the context image. -/
  | atRest (part : Nat)
  /-- RESUME (R347): Continues the saved job or releases the queue. -/
  | resumePart (f : VFrame)
  /-- CKPT_SAVE (R348): Saves a BOUND or PORTABLE image and optionally the pages as a sealed stream. -/
  | ckptSave (f : VFrame)
  /-- CKPT_RESTORE (R349): Checks and applies a checkpoint stream by Table 9-13 and the journal mark. -/
  | ckptRestore (f : VFrame)
  /-- LOG_READ (R362): Streams Plate, Eyepiece or page bytes. -/
  | logRead (f : VFrame)
  /-- TRACE_SET (R363): Sets the partition's trace level and ISEQ_FROM from the next step boundary. -/
  | traceSet (f : VFrame)
  /-- RECORDS (R480): ERR_READ KIND RECORDS returns records from FROM_SEQ and optionally consumes them or clears SPILLWAY. -/
  | errRecords (f : VFrame)
  /-- INSTANCE (R480): ERR_READ KIND INSTANCE returns one detector instance's counters. -/
  | instanceRecord (f : VFrame)
  /-- ONCE (R489): INJECT MODE ONCE arms an injection point for one event. -/
  | onceInject (f : VFrame)
  /-- COUNT (R489): INJECT MODE COUNT arms an injection point for COUNT events PERIOD apart. -/
  | countInject (f : VFrame)
  /-- STOP (R489): INJECT MODE STOP disarms an injection. -/
  | stopInject (f : VFrame)
  /-- INJECTED_EVENT (R490): An armed injection point corrupts its checked item and the detector acts in full. -/
  | injectedEvent (inj : BitVec 32) (index : Nat) (syndrome : List Byte)
  /-- ENTROPY_GET (R440): Returns up to 4,096 bytes of Headwater output, encrypted under K_DATA. -/
  | entropyGet (f : VFrame)
  /-- ENTROPY_GET_TIMEOUT (R441): An ENTROPY_GET not served within 50 ms is answered with nothing drawn. -/
  | entropyGetTimeout (mailbox : Nat)
  /-- SELFTEST (R365): Runs the non-intrusive part of a subsystem test and defers the intrusive part. -/
  | selftest (f : VFrame) (failed : List Nat)
  /-- INTRUSIVE_PART (R491): The deferred part of a test or calibration runs at an affected partition's job boundary. -/
  | intrusivePart (test : BitVec 32) (part : Nat) (failed : List Nat)
  /-- AGE_SCAN (R464): CALIBRATE AGE_SCAN measures SLOW of every die in scope. -/
  | ageScan (f : VFrame)
  /-- REPLAN (R466): CALIBRATE REPLAN scans and writes a new Ephemeris plan. -/
  | replan (f : VFrame)
  /-- POWER_BUDGET (R468): CALIBRATE POWER_BUDGET sets the input power budget Dreter keeps. -/
  | powerBudget (f : VFrame)
  /-- THROTTLE_TARGET (R468): CALIBRATE THROTTLE_TARGET sets Dreter's junction temperature target. -/
  | throttleTarget (f : VFrame)
  /-- IDLE_POLICY (R468): CALIBRATE IDLE_POLICY sets DEEP_AFTER_MS and PLL_SLEEP_US. -/
  | idlePolicy (f : VFrame)
  /-- PHY_RETRAIN (R468): CALIBRATE PHY_RETRAIN schedules a full retrain of a die's stitch links and HBM PHYs. -/
  | phyRetrain (f : VFrame)
  /-- PORT_CONFIG (R366): CALIBRATE PORT_CONFIG writes panel number, address prefix, gateway MAC and TRIB_CFG. -/
  | portConfig (f : VFrame)
  /-- LOCKSTEP_PAIR (R277): Pairs a local partition with a peer partition for lock-step. -/
  | lockstepPair (f : VFrame)
  /-- UNPAIR (R277): LOCKSTEP_PAIR with UNPAIR ends a pairing. -/
  | unpair (f : VFrame)
  /-- PERSIST_READ (R395): Returns persistent registers with owners, wear flags and write counts. -/
  | persistRead (f : VFrame)
  /-- PERSIST_WRITE (R396): Writes a host-owned persistent register when its write count matches. -/
  | persistWrite (f : VFrame)
  /-- JOURNAL_QUERY (R346): Returns journal entries of one or all partitions. -/
  | journalQuery (f : VFrame)
  /-- VORLA_RETX (R323): An unacknowledged panel frame's retransmission timer expires and the frame is sent again. -/
  | vorlaRetx (mailbox : Nat) (seq : BitVec 32)
  /-- ACK_DEADLINE (R322): With 100 us passed unacknowledged, the panel sends an acknowledgement, on a KEEPALIVE if needed. -/
  | ackDeadline (mailbox : Nat)
  /-- SESSION_EXPIRY (R323): A session expires after 1 s of silence or of an unacknowledged frame, and its key is destroyed. -/
  | sessionExpiry (mailbox : Nat)
  /-- KEEPALIVE_SEND (R330): Every 10 ms the always-on domain sends KEEPALIVE on both host ports. -/
  | keepaliveSend
  /-- DATA (R302): A Tributary DATA frame is received and written into the channel's receive ring. -/
  | dataFrame (f : TFrame)
  /-- ACK (R298): A Tributary ACK frame updates acknowledgement, SACK, horizon and rate. -/
  | ackFrame (f : TFrame)
  /-- HALO (R165): A HALO frame is received into the halo inbox and moved to staging once LAST has arrived. -/
  | haloFrame (f : TFrame)
  /-- CHAIN_FRAME (R105): A CHAIN frame is received into the partition's chain inbox. -/
  | chainFrame (f : TFrame)
  /-- ARRIVE (R306): A Tributary BARRIER ARRIVE arrives from a child panel in the barrier tree. -/
  | arriveFrame (f : TFrame)
  /-- RELEASE (R306): A Tributary BARRIER RELEASE arrives and is forwarded to children and the partition. -/
  | releaseFrame (f : TFrame)
  /-- LEAVE (R313): A LEAVE frame arrives, closing a connection or declaring the peer lost. -/
  | leaveFrame (f : TFrame)
  /-- OPEN (R289): An OPEN frame arrives and, with the local OPEN acknowledged, opens a connection. -/
  | openConn (f : TFrame)
  /-- START (R278): Lock-step START arrives and its fields are compared with the local job. -/
  | startFrame (f : TFrame)
  /-- DIGEST (R279): Lock-step DIGEST arrives and is compared with the local step digest. -/
  | digestFrame (f : TFrame)
  /-- FREEZE (R280): Lock-step FREEZE arrives and the partition comes to rest with DIVERGED. -/
  | freezeFrame (f : TFrame)
  /-- HOLD (R281): Lock-step HOLD arrives and the timeout stops counting. -/
  | holdFrame (f : TFrame)
  /-- LSTEP_RESUME (R281): Lock-step RESUME arrives and the timeout counts again. -/
  | lstepResume (f : TFrame)
  /-- LS_TIMEOUT (R281): No peer lock-step message within TIMEOUT_MS ends the paired job with ST_PEER_LOST. -/
  | lsTimeout (part : Nat)
  /-- RTO (R299): A Tributary frame's retransmission timer expires and the frame is retransmitted or the connection exhausts. -/
  | rto (part peer ix : Nat) (seq : BitVec 32)
  /-- TRIB_ACK_TIMER (R298): 4 us after the first unacknowledged frame the receiver sends an ACK. -/
  | tribAckTimer (part peer ix : Nat)
  /-- EVERY_20US (R310): Every 20 us a connection's congestion state decays and its rate recovers. -/
  | every20us (part peer ix : Nat)
  /-- OPEN_TIMEOUT (R289): A connection not open within 1,000 ms ends the job with ST_PEER_LOST. -/
  | openTimeout (part : Nat)
  /-- PORT_DOWN_TIMEOUT (R312): A scale-out port down for 50 ms declares its connections' peers lost. -/
  | portDownTimeout (port : Nat)
  /-- NEIGHBOR_SOLICITATION (R286): An IPv6 Neighbor Solicitation for a port address is answered with an advertisement. -/
  | neighborSolicitation (port : Nat) (target : BitVec 128)
  /-- TRACE_RD (R160): A program write of TRACE_RD frees trace ring space and ends a trace wait. -/
  | traceRd (tile : Nat) (v : BitVec 32)
  /-- ROUTER_COUNT (R214): Reading ROUTER_COUNT returns merge counters and clears FORK_HWM. -/
  | routerCount (x y : Nat)
  /-- FERRY_STATUS (R239): Reading FERRY_STATUS returns flight counts and clears INFLIGHT_MAX. -/
  | ferryStatus (tile : Nat)
  /-- DIE_PWR (R461): Reading DIE_PWR returns die power state and clears DROOP_CNT. -/
  | diePwr (die : Nat)
  /-- REGISTER_WRITE (R9): A write to a register with no row of its own takes effect by its access code. -/
  | registerWrite (reg : RegId) (v : Word)
  /-- RESET_N (R500): RESET_N held low for 5 us starts a device reset after BYE, LEAVE and held-count flush. -/
  | resetN
  /-- COLD_START (R373): The panel leaves reset and runs the ROM self-test, epoch advance and host port training, awaiting a Dreter load. -/
  | coldStart (romOk kat : Bool)
  /-- AUX_LOSS (R503): 12 V AUX leaves its range and the panel powers down its VIN rails. -/
  | auxLoss
  /-- REF_LOSS (R448): REFCLK_25M without an edge for 10 us causes a device reset. -/
  | refLoss
  /-- VIN_DIP (R459): VIN below 41.0 V for 2 us sets DIP and halves every tile clock. -/
  | vinDip (vin : BitVec 16)
  /-- DIP_RECOVERY (R459): VIN at or above 41.0 V for 20 us ends the dip and starts the 2 ms hold. -/
  | dipRecovery
  /-- DIP_HOLD_END (R459): The 2 ms hold ends, clocks return to normal and EVENT LIMITER is sent. -/
  | dipHoldEnd
  /-- VIN_BROWNOUT (R460): VIN below 37.0 V for 1 us causes a brownout reset. -/
  | vinBrownout
  /-- TJ_CLAMP (R455): A die reaching 105 C is clamped to 250 MHz or counted as an emergency. -/
  | tjClamp (die : Nat) (temp : BitVec 8)
  /-- TJ_CLAMP_END (R455): TJ at or below 100 C for 1 ms ends the clamp. -/
  | tjClampEnd (die : Nat) (temp : BitVec 8)
  /-- THERM_TRIP (R455): Any sensor at 118 C asserts THERM_TRIP_N and turns off every rail except VAON. -/
  | thermTrip (die : Nat) (temp : BitVec 8)
  /-- RAIL_CLAMP (R456): A VTILE command reaching 0.80 V is held and the die's clock scaled by 7/8. -/
  | railClamp (die : Nat)
  /-- RAIL_CLAMP_END (R456): A command at or below 0.79 V for 100 us ends the rail clamp. -/
  | railClampEnd (die : Nat) (mv : BitVec 12)
  /-- BLADE_LIMIT (R457): Inlet current above 200 A for 50 us sets BLADE_LIMIT and halves tile clocks. -/
  | bladeLimit
  /-- BLADE_LIMIT_END (R457): BLADE_LIMIT ends 2 ms after the current falls below 190 A. -/
  | bladeLimitEnd
  /-- DROOP (R461): A droop detector stretches the die's tile clock for at least 32 cycles. -/
  | droop (die : Nat)
  /-- PLL_LOCK (R463): A PLL loses lock; tile clocks relock and partitions on the die fail, or the panel resets. -/
  | pllLock (die : Nat) (mesh : Bool)
  /-- LIMITER_FAULT (R463): Duplicate limiter comparators disagree and the panel resets. -/
  | limiterFault (die : Nat)
  /-- TILE_GATE (R449): A tile idle for 20 us is gated. -/
  | tileGate (x y : Nat)
  /-- TILE_WAKE (R449): A gated tile restarts on new work or a delivery. -/
  | tileWake (x y : Nat)
  /-- DIE_SLEEP (R450): A die with no running job and all tiles gated for PLL_SLEEP_US stops its tile PLL. -/
  | dieSleep (die : Nat)
  /-- DIE_WAKE (R450): A sleeping die restarts its tile PLL on a job start or delivery. -/
  | dieWake (die : Nat)
  /-- DEEP_IDLE (R452): After DEEP_AFTER_MS of idleness the panel enters deep idle. -/
  | deepIdle
  /-- DEEP_IDLE_EXIT (R452): A request needing tiles, HBM, ports or the mesh starts the exit from deep idle. -/
  | deepIdleExit
  /-- SCRUB_WAKE (R453): After 20 h in deep idle the panel wakes and runs one patrol-scrub pass. -/
  | scrubWake
  /-- AGE_WINDOW (R464): A sentinel count window of 2^20 REF cycles ends and slow_ppm is computed. -/
  | ageWindow (x y : Nat) (count : BitVec 32) (mv tj : Nat)
  /-- PLAN_WRITE (R467): Dreter writes a new Ephemeris plan into the bank not in force. -/
  | planWrite (whole : Bool)
  /-- DRT_WATCHDOG (R376): 250 ms without a watchdog write restarts the management complex into RECOVERY. -/
  | drtWatchdog (cause : BitVec 16)
  /-- STEWARD_FAULT (R379): A steward misses its 50 ms watchdog or fails its load. -/
  | stewardFault (die : Nat)
  /-- STEWARD_RELOAD (R379): A faulted steward is reloaded once no partition on its die has a running job. -/
  | stewardReload (die : Nat) (good : Bool)
  /-- PLATE_MIRROR (R391): A filled Plate quarter is copied to the HBM mirror ring. -/
  | plateMirror
  /-- HW_RCT (R437): A Headwater pair fails its repetition count test and output switches. -/
  | hwRct (pair : Nat)
  /-- HW_APT (R437): A Headwater pair fails its adaptive proportion test and output switches. -/
  | hwApt (pair : Nat)
  /-- SENT_HEALTH (R437): A pool sentinel fails a health test and the pool continues or fails. -/
  | sentHealth (die : Nat) (apt : Bool)
  /-- STARTUP_TEST (R429): A source's startup test completes, and the expander is seeded and enters RUN, or FAILED. -/
  | startupTest (passed : BitVec 24) (kat : Bool)
  /-- KAT_FAILURE (R438): A conditioner or expander known-answer failure or parity error sets Headwater FAILED. -/
  | katFailure (kind : Nat)
  /-- EXP_SEED (R433): The expander reseeds after 8,192 calls or for a class 1-3 draw. -/
  | expSeed
  /-- PERIODIC_KAT (R443): Every 2^20 expander calls the known-answer tests run on a spare slot. -/
  | periodicKat (good : Bool)
  /-- MASKING_RESEED (R439): Every 10 ms each crypto engine's masking generator takes 256 fresh bits. -/
  | maskingReseed
  /-- TRIB_LINK (R312): A scale-out port's link goes down or comes back up or retrains, raising detector 0x0A06 and starting or cancelling the 50 ms down count. -/
  | tribLink (port : Nat) (up retrained : Bool)
  /-- HOST_LINK (R368): A host port's link goes down, comes back up or retrains, raising detector 0x0B04 and feeding its leaky counter toward host port disable. -/
  | hostLink (port : Nat) (up retrained : Bool)
  /-- TEST_ACCESS_PORT (R502): An IEEE 1149.1 instruction clocked in on TCK, TMS and TDI is executed, including the provisioning, life-cycle and Sheldo firmware writes that the test port makes in BLANK, PROVISIONED and RETURNED. -/
  | testAccessPort (op : Jtag)
  /-- MODE_RUN_REACHED (R373): Bring-up after an accepted Dreter load finishes its steward loading, training, journal scan and EVENT JOBS_PENDING, and the panel reports MODE RUN. -/
  | modeRunReached
  /-- CLOCK_REQUEST (R454): Dreter changes a die's requested tile clock f_req, through Sheldo, to hold the power budget and throttle target. -/
  | clockRequest (die : Nat) (f : BitVec 8)
  deriving DecidableEq, Repr

end Sys2Proof
end

