-- ==== Sys2Proof/Decode.lean ====
section
/-! DEFINITION. The decoder of table words: the opcode table gives its rows no bits, so no word spells a command (log 2). -/

namespace Sys2Proof

/-- The command that a word of so many bits spells by the opcode table's bits: none, since the table gives none. -/
def decodeTableWord (_nbits _w : Nat) : Option Instr := none

end Sys2Proof
end

