-- ==== Sys2Proof/Config.lean ====
section
/-! DEFINITION. What the manual leaves open: values nothing in this model fixes. Every one is a constant without a body, so
no proof can see what it is, and a statement holds whatever it is (log 20 to 23). -/

namespace Sys2Proof

/-- Noise from Headwater: the bits of one byte drawn, by the number of bytes drawn before it (R424, R431). -/
opaque Config.noiseByte : Nat → Byte

/-- A value the manual leaves unstated after a command that goes on, fresh for each count. -/
opaque Config.freeWord : Nat → Word

/-- The byte a drain reads from a spill slot whose lines the program has written itself: a function of the slot's bytes and
of the element that the manual does not give (R509). -/
opaque Config.spillOpen : List Byte → Nat → Byte

/-- ML-KEM-1024 key generation from 64 random bytes: the encapsulation key and the decapsulation key (R407, R409). -/
opaque Config.kemKeyPair : List Byte → List Byte × List Byte

/-- ML-KEM-1024 encapsulation to a key with 32 random bytes: the ciphertext and the shared secret (R411). -/
opaque Config.kemEncaps : List Byte → List Byte → List Byte × List Byte

/-- ML-KEM-1024 decapsulation: the shared secret (R409, R411, R418). -/
opaque Config.kemDecaps : List Byte → List Byte → List Byte

/-- Falcon-1024 key generation from random bytes: the public key and the signing key (R403). -/
opaque Config.falconKeyPair : List Byte → List Byte × List Byte

/-- A Falcon-1024 signature by a signing key over a message with 40 random bytes (R405). -/
opaque Config.falconSign : List Byte → List Byte → List Byte → List Byte

/-- Whether a Falcon-1024 signature verifies under a public key (R375, R400, R409, R411). -/
opaque Config.falconVerify : List Byte → List Byte → List Byte → Bool

/-- The Isaufel root public key in Sheldo's ROM (R403, R411). -/
opaque Config.rootKey : List Byte

/-- The firmware public key whose digest the ROM holds as FW_KD (R375). -/
opaque Config.firmwareKey : List Byte

/-- LC_KD, the digest of the life-cycle public key in the ROM (R400). -/
opaque Config.lcKd : List Byte

/-- The bytes of Sheldo's ROM, measured as M_ROM (Table 14-7). -/
opaque Config.romImage : List Byte

/-- The base MAC address on the label (R508). -/
opaque Config.baseMac : BitVec 48

/-- The fused sentinel count of a tile and the coefficients of a die (R464). -/
opaque Config.sentBase : Nat → Nat
opaque Config.kvPpm : Nat → Nat
opaque Config.ktPpm : Nat → Nat

/-- The fused V/F table of a die (R466): mV at a clock in units of 5 MHz other than 1.00 GHz, where Table 16-1 gives 0.70 V. -/
opaque Config.vfMv : Nat → Nat → Nat

/-- Direction of the on-die link with a number at a tile: 0 north, 1 east, 2 south, 3 west, modulo 4. No table numbers these links. -/
opaque Config.linkDir : Nat → Nat → Nat → Nat

/-- Whether a spare row is left for a row, by the rows its stack has repaired (Table 17-9, actions 4 and 6). -/
opaque Config.rowSpare : Nat → List Nat → Bool

/-- Whether the PHY of a site has a spare lane left after a number of lane repairs (Table 17-8, 0x0507). -/
opaque Config.laneSpare : Nat → Nat → Bool

/-- Cycles of a domain that one idle tick adds where the manual gives the domain a free-running clock (Table 16-2). -/
opaque Config.ringCycles : Nat → Nat

/-- Where in the chain inbox's region an entry's bytes stand, by CHAIN_ID, STEP and offset (R105; log 78). -/
opaque Config.inboxPlace : Nat → Nat → Nat → Nat

/-- Where in the halo inbox's region an entry's bytes stand, by SRC_TILE, STEP, SWEEP, COLOUR and offset (R165; log 78). -/
opaque Config.haloPlace : Nat → Nat → Nat → Nat → Nat → Nat

/-- The slot of a receive ring that a message takes, by the sender's panel number and the message's serial (R302; log 78). -/
opaque Config.ringSlot : Nat → Nat → Nat

/-- A byte string of exactly n bytes, cut or filled with zeros, so that a field of fixed width keeps its width whatever an
open value is. -/
def fitBytes (n : Nat) (bs : List Byte) : List Byte := bs.take n ++ List.replicate (n - bs.length) 0

end Sys2Proof
end

