-- ==== Sys2Proof/Machine/ErrorState.lean ====
section
/-! DEFINITION. State of detectors, the error-record ring, injection and deferred tests (chapter 17). -/

namespace Sys2Proof.Machine

/-- Where a detector instance stands: the location fields of an error record (Table 17-5). -/
structure Loc where
  /-- 0-23 compute die, 0x20 + k edge I/O die, 0x40 control die, 0xFF none. -/
  die : Nat := 0xFF
  px : Nat := 0xFF
  py : Nat := 0xFF
  /-- Detector-specific unit, 0xFFFF none. -/
  unit : Nat := 0xFFFF
  deriving DecidableEq, Repr

/-- An error record (Table 17-5). -/
structure ErrRec where
  det : Nat
  cls : Nat
  sev : Nat
  count : Nat
  first : Nat
  last : Nat
  domain : Nat
  loc : Loc
  part : Nat
  flags : Nat
  meridian : Word
  /-- Sixteen bytes. -/
  syn : List Byte
  seq : BitVec 32
  job : BitVec 32
  deriving DecidableEq, Repr

/-- One detector instance (R470, R477, R481). -/
structure DetInst where
  det : Nat
  loc : Loc
  /-- The row of a 0x0501 or the frame of a 0x0502, which the location fields do not name (Table 17-8). -/
  place : Nat := 0
  /-- Events since the device reset, 64 bits. -/
  total : Word := 0
  /-- RECORD_SEQ of the open record. -/
  openRec : Option (BitVec 32) := none
  /-- Held count. -/
  held : Nat := 0
  /-- The record kept for the first held event; its COUNT and LAST_TS are set when it is written. -/
  heldRec : Option ErrRec := none
  heldLast : Nat := 0
  /-- Leaky counter (R481). -/
  level : Nat := 0
  mark : Nat := 0
  /-- Severity of the newest event (Table 17-4). -/
  sev : Nat := 0
  /-- Set by 0x0F04 until the next device reset. -/
  inexact : Bool := false
  deriving DecidableEq, Repr

/-- A repair that is due and waits for its moment (R482). -/
structure RepairDue where
  det : Nat
  loc : Loc
  /-- Action number of Table 17-9. -/
  action : Nat
  part : Nat
  /-- Frame, row, link or port number that the location fields cannot carry. -/
  place : Nat := 0
  /-- A tile retirement that stands in the repair list and waits for its partition's boundary (R25). -/
  listed : Bool := false
  deriving DecidableEq, Repr

/-- An armed injection (R489). -/
structure Injection where
  id : BitVec 32
  det : Nat
  /-- Instances armed. -/
  locs : List Loc
  noRepair : Bool
  /-- Events left at each instance. -/
  left : List Nat
  period : Nat
  deriving DecidableEq, Repr

/-- A deferred test or calibration (R365, R491). -/
structure Deferred where
  id : BitVec 32
  /-- Subsystem under test, or 0x100 + KIND for a calibration. -/
  what : Nat
  scopeKind : Nat
  scopeId : Nat
  /-- Partitions whose part still waits. -/
  parts : List Nat
  passed : Nat
  failed : Nat
  deriving DecidableEq, Repr

/-- Chapter 17 state. The ring, SPILLWAY and the pending records live in always-on SRAM and survive device resets. -/
structure ErrState where
  insts : List DetInst := []
  /-- Records written and not consumed, oldest first, at most 4,096 (R476). -/
  ring : List ErrRec := []
  /-- RECORD_SEQ of the next record. -/
  nextSeq : BitVec 32 := 0
  /-- Repair and UNREPAIRABLE records that wait for an entry, in the order they arose (R477). -/
  waiting : List ErrRec := []
  /-- SPILLWAY fields (Table 17-6). -/
  spillDetail : BitVec 40 := 0
  fullEpisodes : BitVec 8 := 0
  resetDiscard : Bool := false
  due : List RepairDue := []
  injections : List Injection := []
  nextInj : BitVec 32 := 1
  /-- An injected event is at work, with its NO_REPAIR: its records carry INJECTED (R490). -/
  injecting : Option Bool := none
  deferred : List Deferred := []
  nextTest : BitVec 32 := 1
  /-- Quads made unavailable for the current BOOT_EPOCH by die withdrawal (Table 17-9, action 13). -/
  withdrawn : List Nat := []
  /-- Steward reloads that failed this BOOT_EPOCH, by die (R379). -/
  stewardFails : Tab Nat := []
  /-- Repairs applied beyond the 208 list entries, for the current BOOT_EPOCH (R484): entry values. -/
  epochRepairs : List (BitVec 32) := []
  /-- Retirements in the repair list that are not yet in force for a partition whose job runs: the partition and the TILE entry (R25). -/
  lag : List (Nat × BitVec 32) := []
  /-- HBMC times of the lasting frames of each stack within the last 2^44 cycles (Table 17-8, 0x0502). -/
  stackLasting : Tab (List Nat) := []
  deriving DecidableEq, Repr

end Sys2Proof.Machine
end

