-- ==== Sys2Proof/Machine/Mem.lean ====
section
/-! DEFINITION. Byte memories of the panel (tile SRAM, HBM, the Plate ring): a list of cells in one canonical form,
addresses strictly rising, no cell that holds what an unlisted address reads as, which is zero (R196, R242). -/

namespace Sys2Proof.Machine

/-- A byte memory in canonical form. -/
abbrev Mem := List Host.Cell

/-- The byte at an address; an unlisted address reads zero: every SRAM line and every first-touch page is zeroed before
use (R196, R242). -/
def Mem.byte : Mem → Nat → Byte
  | [], _ => 0
  | c :: m, a => if c.1 = a then c.2 else Mem.byte m a

/-- n bytes from an address upward (R6). -/
def Mem.read (m : Mem) (a n : Nat) : List Byte := (List.range n).map fun k => m.byte (a + k)

/-- The little-endian number in n bytes at an address (R6). -/
def Mem.nat (m : Mem) (a n : Nat) : Nat := leNat (m.read a n)

/-- The cells a run of bytes adds: a zero byte adds none. -/
def Mem.cellsOf : Nat → List Byte → Mem
  | _, [] => []
  | a, b :: bs => if b = 0 then Mem.cellsOf (a + 1) bs else (a, b) :: Mem.cellsOf (a + 1) bs

/-- A run of bytes written at an address. -/
def Mem.write (m : Mem) (a : Nat) (bs : List Byte) : Mem :=
  m.filter (fun c => c.1 < a) ++ Mem.cellsOf a bs ++ m.filter (fun c => a + bs.length ≤ c.1)

/-- Every byte from a, n of them, set to zero. -/
def Mem.clear (m : Mem) (a n : Nat) : Mem := m.filter (fun c => c.1 < a || a + n ≤ c.1)

/-- The canonical form: addresses strictly rising above a bound, no zero cell. -/
def Mem.wfFrom : Nat → Mem → Bool
  | _, [] => true
  | lo, c :: m => decide (lo ≤ c.1) && decide (c.2 ≠ 0) && Mem.wfFrom (c.1 + 1) m

/-- The canonical form of a memory. -/
def Mem.wf (m : Mem) : Bool := Mem.wfFrom 0 m

end Sys2Proof.Machine
end

