-- ==== Sys2Proof/Machine/FirmState.lean ====
section
/-! DEFINITION. State of the management complex, the Plate ring and the persistent registers (chapter 13). -/

namespace Sys2Proof.Machine

/-- MODE (Table 13-2). -/
inductive Mode where
  | run | boot | recovery
  deriving DecidableEq, Repr

/-- Encoding of MODE (Table 13-2). -/
def Mode.code : Mode → BitVec 8
  | .run => 0 | .boot => 1 | .recovery => 2

/-- A Dreter image whose checks have passed: what later rules read of it (Table 13-4). -/
structure Image where
  svn : BitVec 32 := 0
  handVer : BitVec 16 := 0
  handMin : BitVec 16 := 0
  stewardIf : BitVec 16 := 0
  buildId : Word := 0
  digest : List Byte := []
  entry : BitVec 32 := 0
  deriving DecidableEq, Repr

/-- Activation states (Table 13-6). -/
inductive Phase where
  | idle | waiting | committed | starting
  deriving DecidableEq, Repr

/-- One persistent register (R392), kept in two copies; a copy that would not pass its check is marked (R488). -/
structure PReg where
  value : Word := 0
  wcount : BitVec 32 := 0
  bad0 : Bool := false
  bad1 : Bool := false
  deriving DecidableEq, Repr

/-- Chapter 13 state. -/
structure FirmState where
  mode : Mode := .boot
  /-- The running image. -/
  image : Option Image := none
  /-- STEWARD_IF and health of the stewards, by die: none while not loaded. -/
  stewards : Tab (BitVec 16) := []
  /-- Stewards that have failed and wait for a reload (R379). -/
  stewardDown : List Nat := []
  /-- A load has been accepted and MODE RUN is not yet reached (Table 13-3, steps 5-10). -/
  starting : Bool := false
  /-- The staging area: the bytes loaded, and the image once FW_STAGE has accepted it (R380). -/
  stagedBytes : List Byte := []
  staged : Option Image := none
  /-- Activation (R381-R386). -/
  phase : Phase := .idle
  actTag : BitVec 32 := 0
  actSeq : BitVec 32 := 0
  /-- The hand-over block (Table 13-7). -/
  handover : List Byte := []
  /-- Which of the two loader banks is active (R386). -/
  loaderBank : Nat := 0
  /-- Plate ring: bytes by Plate offset, the ring of 256 KiB and its mirror together (R390, R391). -/
  plate : Mem := []
  plateNext : Nat := 0
  /-- Quarters copied to the mirror so far, and a drop since the last record (R391). -/
  mirrored : Nat := 0
  plateGap : Bool := false
  /-- The 512 persistent registers, by number; an absent one reads zero (R392). -/
  pregs : Tab PReg := []
  deriving DecidableEq, Repr

end Sys2Proof.Machine
end

