-- ==== Sys2Proof/Machine/PanelState.lean ====
section
/-! DEFINITION. Fuses and the cycle counters of the clock domains (chapters 0, 1 and 16). -/

namespace Sys2Proof.Machine

/-- Fuses: the build, the grade and the tiles found bad at test (R2, R22, R23). -/
structure Fuses where
  /-- 0 M, 1 B, 2 F (Table 12-5). -/
  build : Nat := 0
  /-- Grade C; otherwise grade A. -/
  gradeC : Bool := false
  /-- Physical tiles fused off, py * 48 + px. -/
  bad : List Nat := []
  deriving DecidableEq, Repr

/-- LOCAL_TS counters (R447). -/
structure Clock where
  /-- REF cycles since device reset. -/
  ref : Nat := 0
  /-- REF cycles since VAON came up: the base of windows that span device resets (R393, R467). -/
  life : Nat := 0
  /-- Cycles of the other domains, by 64 * position + die where a domain has one counter per die. -/
  dom : Tab Nat := []
  deriving DecidableEq, Repr

end Sys2Proof.Machine
end

