-- ==== Sys2Proof/Machine/PartState.lean ====
section
/-! DEFINITION. State of partitions, jobs, the journal, pairing and programs (chapters 1, 9, 10, 12). -/

namespace Sys2Proof.Machine

/-- The rectangle of a partition (R28). -/
structure Rect where
  part : Nat
  x0 : Nat
  y0 : Nat
  w : Nat
  h : Nat
  deriving DecidableEq, Repr

/-- A region of a program image (R352). -/
structure Region where
  kind : Nat
  channel : Nat
  va : Nat
  bytes : Nat
  maxMsg : Nat
  senders : List Nat
  deriving DecidableEq, Repr

/-- A loaded program (R351-R354). -/
structure Program where
  digest : List Byte
  family : List Byte
  flags : Nat
  census : Nat
  panels : Nat
  win : Nat
  bytes : Nat
  peers : List Nat
  regions : List Region
  groups : List (List Nat)
  /-- Instruction words of each tile index of the partition. -/
  streams : Tab (List Word)
  /-- Frames reserved to the image (R353). -/
  frames : List Nat
  deriving DecidableEq, Repr

/-- A pairing (Table 10-8). -/
structure Pairing where
  peerPanel : Nat
  peerPart : Nat
  pairId : BitVec 32
  lag : Nat
  timeout : Nat
  /-- The peer has sent HOLD and not RESUME (R281). -/
  peerHeld : Bool := false
  /-- START exchanged for the running job. -/
  started : Bool := false
  startSent : Bool := false
  /-- The peer's START payload that came before the local job. -/
  early : Option (List Byte) := none
  /-- Jobs started under the pairing, and whether the pair's own connection 0 is in use (log 46). -/
  jobs : Nat := 0
  /-- Own and peer digests not yet compared, by step (R279). -/
  own : Tab Word := []
  peers : Tab Word := []
  /-- Steps compared and found equal reach up to here. -/
  compared : Option Nat := none
  deriving DecidableEq, Repr

/-- A journal entry (R339, R344). -/
structure Job where
  id : BitVec 32
  part : Nat
  /-- Table 12-11: 0 ACCEPTED, 1 RUNNING, 2 DONE, 3 AWAIT_RESTORE. -/
  state : Nat
  flags : Nat
  key : Nat
  start : Word
  stop : Word
  seed : Nat
  image : List Byte
  inPlace : List (Nat × Nat)
  panels : Nat
  mpj : BitVec 32
  panelList : List Nat
  /-- Was RUNNING at the reset (R344). -/
  wasRunning : Bool := false
  rerun : Bool := false
  reruns : Nat := 0
  /-- Completion payload: STATUS, two bytes and the audit record. -/
  done : List Byte := []
  /-- The partition as journaled (R344): rectangle, FLAGS, share. -/
  rect : Rect
  pflags : Nat
  share : List (Nat × Nat)
  /-- The copies of the entry that would not pass their check (R488). -/
  bad0 : Bool := false
  bad1 : Bool := false
  deriving DecidableEq, Repr

/-- The job a partition runs: what the audit record and the ending rules read (R270). -/
structure RunJob where
  id : BitVec 32
  fp : Nat := 0
  unbounded : Bool := false
  shapeChanged : Bool := false
  forced : Bool := false
  relaxed : Bool := false
  digestOn : Bool := false
  digestBad : Bool := false
  lockstep : Bool := false
  diverged : Bool := false
  stopped : Bool := false
  censusStart : Nat := 0
  preempts : Nat := 0
  restores : Nat := 0
  events : Nat := 0
  /-- Sum of step digests (R273). -/
  digest : Word := 0
  /-- Re-runs under R485. -/
  again : Nat := 0
  /-- The instructions may run: every connection open and the pair started (R278, R289). -/
  open_ : Bool := true
  /-- The program's load handler runs: its writes are not digested (R258, R273). -/
  loading : Bool := false
  /-- The pair is frozen at a step (R280, R486). -/
  frozen : Option Nat := none
  /-- The job ends at the next step boundary with ST_PEER_LOST (R312). -/
  peerLost : Bool := false
  lsPeerPanel : Nat := 0
  lsPeerPart : Nat := 0
  /-- Copies of IN_PLACE ranges: VA and bytes (R343). -/
  copies : List (Nat × List Byte) := []
  /-- Frames that hold the copies (R343). -/
  copyFrames : List Nat := []
  deriving DecidableEq, Repr

/-- What a CKPT_RESTORE leaves for the job that owns the context (R258, R268, R270): its form, digest, flags, marks, the census code it was
saved under, and how many restores have been applied. -/
structure Context where
  portable : Bool
  digest : Word := 0
  fp : Nat := 0
  unbounded : Bool := false
  relaxed : Bool := false
  digestBad : Bool := false
  census : Nat
  shapeChanged : Bool := false
  forced : Bool := false
  restores : Nat := 1
  deriving DecidableEq, Repr

/-- An incoming result in the chain inbox (R105): identifier, step, SEG_NEXT and CH_OP with the mark that a later frame carried others (R101),
entries by offset, the count of entries once LAST has arrived, and ABORT. -/
structure ChainIn where
  id : Nat
  step : Nat
  lead : Nat := 0
  op : Nat := 0
  mixed : Bool := false
  parts : Tab (List Byte) := []
  total : Option Nat := none
  abort : Bool := false
  deriving DecidableEq, Repr

/-- A group of boundary states in the halo inbox (R165): source, step, sweep, colour; entries by offset, the count of entries once LAST has
arrived, and the tiles that have moved theirs into staging. -/
structure HaloIn where
  panel : Nat
  src : Nat
  step : Nat
  sweep : Nat
  colour : Nat
  /-- Tile entries (R164). -/
  wide : Bool := false
  parts : Tab (List Byte) := []
  total : Option Nat := none
  moved : List Nat := []
  deriving DecidableEq, Repr

/-- How a partition stands with PREEMPT and checkpoints (R252, R347-R350). -/
inductive Hold where
  | free
  /-- Coming to rest: the TAG that asked, and what follows: 0 PREEMPT, 1 BOUND save, 2 PORTABLE save before its boundary, 3
  PORTABLE save with its save handler running, 4 freeze of a pair, 5 cancellation, 6 stop step; and FLAGS.PAGES of a save. -/
  | stopping (tag : BitVec 32) (why : Nat) (pages : Bool)
  | rest
  deriving DecidableEq, Repr

/-- One partition. -/
structure Part where
  /-- FLAGS of PART_CREATE: bit 0 PARITY, bit 1 WEIGHT_MODE. -/
  flags : Nat := 0
  share : List (Nat × Nat) := []
  vaLimit : Nat := 0
  /-- Mapped pages and changed entries by virtual page number; an absent page reads the default entry (R333). -/
  ptes : Tab Word := []
  /-- Level-1 entries by VA bits 42:32, and the HBM frames that hold the partition's tables (R235, R236; log 129). -/
  level1 : Tab Word := []
  tables : List Nat := []
  touch : Bool := false
  /-- First-touch reserve: FRAME codes (R242, R333). -/
  reserve : List Nat := []
  /-- Current key generation (R416). -/
  gen : Nat := 0
  tenantKd : Option (List Byte) := none
  /-- Sealed: WEIGHT_ID and the PROG_FAMILY at the bind (R417, R419). -/
  sealed_ : Option (List Byte × List Byte) := none
  program : Option Program := none
  /-- MERIDIAN (Table 10-3a). -/
  meridian : Word := 0
  /-- Trace level in force and at the next step boundary, ISEQ_FROM (R273). -/
  level : Nat := 0
  nextLevel : Option (Nat × Nat) := none
  pairing : Option Pairing := none
  run : Option RunJob := none
  /-- A job re-queued at the head of the queue by R485, its journal entry still RUNNING. -/
  again : Option RunJob := none
  hold : Hold := .free
  /-- The reset of R344 is not yet answered by a restore. -/
  awaitRestore : Bool := false
  /-- The context of a CKPT_RESTORE that no started job owns: the next job that starts takes it (R268, R272; log 45). -/
  restored : Option Context := none
  /-- TAG of a JOB_CANCEL that waits for the running job to come to rest (R342, R350). -/
  cancelTag : Option (BitVec 32) := none
  /-- ARRIVEs held: position of the child, its COUNT and its STEP (R306). -/
  arrives : List (Nat × Nat × Nat) := []
  gathered : Bool := false
  /-- RELEASE of the tree has arrived and the partition has not yet released its tiles (R306). -/
  released : Bool := false
  chainIn : List ChainIn := []
  haloIn : List HaloIn := []
  /-- A bound image kept at a stop step or a divergence (R268, R280). -/
  image : Option (List Byte) := none
  deriving DecidableEq, Repr

/-- The Almanac journal and its counters (R339-R346). -/
structure Journal where
  jobs : List Job := []
  nextId : BitVec 32 := 1
  /-- The last 256 retired jobs of each partition: partition, SUBMIT_KEY, JOB_ID, seed (R339). -/
  retired : List (Nat × Nat × BitVec 32 × Nat) := []
  /-- JOB_ID of each partition's last journaled completion (R344, R348). -/
  marks : Tab (BitVec 32) := []
  deriving DecidableEq, Repr

end Sys2Proof.Machine
end

