-- ==== Sys2Proof/Machine/EntropyState.lean ====
section
/-! DEFINITION. State of Headwater, the entropy source (chapter 15). -/

namespace Sys2Proof.Machine

/-- HW_STATUS.STATE (Table 15-2). -/
inductive HwState where
  | startup | run | switching | failed
  deriving DecidableEq, Repr

/-- Encoding of STATE (Table 15-2). -/
def HwState.code : HwState → Nat
  | .startup => 0 | .run => 1 | .switching => 2 | .failed => 3

/-- A request that waits for Headwater (R439) or for the end of deep idle (R452): its mailbox, opcode, TAG and payload. -/
structure Waiter where
  box : Nat
  opcode : Nat
  tag : BitVec 32
  flags : Nat
  seq : BitVec 32
  header : List Byte
  payload : List Byte
  deriving DecidableEq, Repr

/-- Chapter 15 state. -/
structure EntropyState where
  state : HwState := .startup
  /-- 0 HEADWATER, 1 SENTINEL. -/
  source : Bool := false
  lastTest : BitVec 3 := 0
  lastUnit : BitVec 5 := 0
  pairFail : BitVec 16 := 0
  pairEn : BitVec 16 := 0xFFFF
  reseeds : BitVec 16 := 0
  sentFail : BitVec 24 := 0
  sentEn : BitVec 24 := 0
  /-- The pool's startup test in progress comes from a SELFTEST, which may re-admit failed sentinels (R426, R436). -/
  readmit : Bool := false
  /-- Expander key; 64 zero bytes when destroyed (R432). -/
  key : List Byte := List.replicate 64 0
  ctr : Nat := 0
  seeded : Bool := false
  /-- Conditioned bytes taken from the noise sources since power-on: the place in the noise (R424, R430). -/
  drawn : Nat := 0
  /-- Expander calls since the last periodic known-answer test (R443). -/
  sinceKat : Nat := 0
  /-- Masking seed of each crypto engine (R439, class 4). -/
  masks : Tab (List Byte) := []
  /-- Pairs of each BOOT_EPOCH failure, for the exclusion threshold of Table 17-8. -/
  excluded : List Nat := []
  /-- Requests of classes 1-3 and 5 that wait for output, oldest first (R439). -/
  waiters : List Waiter := []
  /-- Mailbox of the last ENTROPY_GET served from the queue (R439, class 6). -/
  lastBox : Nat := 0
  deriving DecidableEq, Repr

end Sys2Proof.Machine
end

