-- ==== Sys2Proof/Machine/PowerState.lean ====
section
/-! DEFINITION. State of supplies, clocks, limiters, sleep, ageing and the connector pins (chapters 16 and 18). -/

namespace Sys2Proof.Machine

/-- Power state of one compute die (Table 16-7 and R454). -/
structure DiePower where
  /-- Highest junction sensor, degrees Celsius as DIE_PWR reports it. -/
  tj : BitVec 8 := 0
  /-- Requested tile clock in units of 5 MHz. -/
  fReq : BitVec 8 := 0
  /-- VTILE regulator command in mV. -/
  vtile : BitVec 12 := 0
  tjClamp : Bool := false
  railClamp : Bool := false
  /-- Tile PLL stopped (R450). -/
  asleep : Bool := false
  /-- Ephemeris voltage steps in force. -/
  vOff : BitVec 8 := 0
  droopCnt : BitVec 16 := 0
  /-- V_OFF steps due at the next plan write (R461, Table 17-9 action 12). -/
  vStep : Nat := 0
  /-- SLOW of the die at the last scan (R464). -/
  slow : BitVec 24 := 0
  deriving DecidableEq, Repr

/-- A limiter episode that has not been reported (R469). -/
structure Episode where
  /-- 1 DIP, 2 TJ_CLAMP, 3 RAIL_CLAMP, 4 BLADE. -/
  cause : Nat
  die : Nat
  startRef : Nat
  deriving DecidableEq, Repr

/-- What has been reported for a cause and die (R469). -/
structure EpisodeReport where
  cause : Nat
  die : Nat
  /-- REF count of the last EVENT. -/
  at_ : Nat
  /-- Episodes ended since and not reported. -/
  merged : Nat
  deriving DecidableEq, Repr

/-- RESET_CAUSE values (Table 16-8). -/
inductive Cause where
  | powerOn | resetN | brownout | thermTrip | refLoss | orderly | limiterFault | deviceFatal
  deriving DecidableEq, Repr

/-- Encoding of a cause (Table 16-8). -/
def Cause.code : Cause → BitVec 8
  | .powerOn => 0x00 | .resetN => 0x01 | .brownout => 0x02 | .thermTrip => 0x03
  | .refLoss => 0x04 | .orderly => 0x05 | .limiterFault => 0x06 | .deviceFatal => 0x07

/-- Chapters 16 and 18 state. -/
structure PowerState where
  dies : Tab DiePower := []
  /-- Input dip in progress (PWR_STATUS.DIP). -/
  dip : Bool := false
  /-- Dip hold in progress (PWR_STATUS.HOLD). -/
  hold : Bool := false
  /-- PWR_STATUS.BLADE_LIMIT. -/
  blade : Bool := false
  /-- Edge I/O dies (0x20 + k) and the control die (0x40) at 105 degrees. -/
  hotDies : List Nat := []
  vin10mv : BitVec 16 := 0
  pin10w : BitVec 16 := 0
  /-- RESET_CAUSE (Table 16-8). -/
  resetCause : BitVec 32 := 0
  /-- Thermal trip in force (R455). -/
  trip : Bool := false
  episodes : List Episode := []
  reports : List EpisodeReport := []
  /-- POWER_BUDGET, THROTTLE_TARGET, DEEP_AFTER_MS, PLL_SLEEP_US (Table 16-13). -/
  budget : BitVec 16 := 145
  throttle : BitVec 8 := 95
  deepAfter : BitVec 32 := 0
  pllSleep : BitVec 16 := 1000
  deepIdle : Bool := false
  /-- Gated tiles (R449), by physical tile. -/
  gated : List Nat := []
  /-- The 12 V AUX input is within its range: VAON is up. -/
  auxUp : Bool := true
  /-- REFCLK_25M runs. -/
  refUp : Bool := true
  /-- The rails fed from VIN are on (R497, R503). -/
  railsOn : Bool := false
  /-- PWR_OK, THERM_TRIP_N and the SerDes transmitters (Table 18-3). -/
  pwrOk : Bool := false
  thermTripN : Bool := true
  txIdle : Bool := true
  /-- The panel is held in reset: COLD_START has not yet released it (R499). -/
  inReset : Bool := true
  /-- BANK and REF time of the last plan write, REF time counted over resets while REF runs (R467). -/
  planAt : Option Nat := none
  /-- slow_ppm of each physical tile at its last window (R464). -/
  slows : Tab Nat := []
  /-- Requests that wait for the exit from deep idle, oldest first (R452). -/
  wakers : List Waiter := []
  deriving DecidableEq, Repr

end Sys2Proof.Machine
end

