-- ==== Sys2Proof/Machine/Num.lean ====
section
/-! DEFINITION. The number formats, exact values, rounding and conversion of chapter 02 (R34-R57). -/

namespace Sys2Proof.Machine

/-- The sixteen numeric formats of Table 2-1 (R34). -/
inductive Fmt
  | fp64 | fp32 | fp16 | bf16 | e4m3 | e5m2 | e3m2 | e2m3 | e2m1
  | int32 | int16 | int8 | int4 | uint8 | spin1 | fp32c
  deriving DecidableEq, Repr

/-- The rounding modes of Table 2-5 (R47); the reserved code never passes a load. -/
inductive RMode
  | rn | rz | rs
  deriving DecidableEq, Repr

/-- An exact value a unit computes with: R48's "exact value of its source". The magnitude of a finite value
is man * 2^exp; a zero keeps its sign. -/
inductive Val
  | nan (signalling : Bool)
  | inf (neg : Bool)
  | fin (neg : Bool) (man : Nat) (exp : Int)
  deriving DecidableEq, Repr

/-- The sticky flags of FP_STATUS (Table 2-7, R54). -/
structure Flags where
  nv : Bool := false
  overflow : Bool := false
  uf : Bool := false
  mxnan : Bool := false
  deriving DecidableEq, Repr

/-- Parameters of a floating-point format (Table 2-2), its largest finite encoding and what it has of Table 2-3. -/
structure FloatFmt where
  ebits : Nat
  mbits : Nat
  bias : Int
  /-- largest finite encoding, sign clear -/
  maxEnc : Nat
  /-- canonical NaN, where the format has NaNs -/
  canonNan : Option Nat
  hasInf : Bool
  deriving DecidableEq, Repr

/-- The format of a 4-bit format code (Table 2-1). -/
def Fmt.ofCode (c : Nat) : Fmt :=
  match c % 16 with
  | 0 => .fp64 | 1 => .fp32 | 2 => .fp16 | 3 => .bf16 | 4 => .e4m3 | 5 => .e5m2 | 6 => .e3m2 | 7 => .e2m3
  | 8 => .e2m1 | 9 => .int32 | 10 => .int16 | 11 => .int8 | 12 => .int4 | 13 => .uint8 | 14 => .spin1
  | _ => .fp32c

/-- Bits of one element (Table 2-1, R41). -/
def Fmt.width : Fmt → Nat
  | .fp64 => 64 | .fp32 => 32 | .fp16 => 16 | .bf16 => 16 | .e4m3 => 8 | .e5m2 => 8 | .e3m2 => 6 | .e2m3 => 6
  | .e2m1 => 4 | .int32 => 32 | .int16 => 16 | .int8 => 8 | .int4 => 4 | .uint8 => 8 | .spin1 => 1 | .fp32c => 64

/-- The floating-point parameters of a format (Tables 2-2 and 2-3, R35, R36). -/
def Fmt.float? : Fmt → Option FloatFmt
  | .fp64 => some ⟨11, 52, 1023, 0x7FEFFFFFFFFFFFFF, some 0x7FF8000000000000, true⟩
  | .fp32 => some ⟨8, 23, 127, 0x7F7FFFFF, some 0x7FC00000, true⟩
  | .fp16 => some ⟨5, 10, 15, 0x7BFF, some 0x7E00, true⟩
  | .bf16 => some ⟨8, 7, 127, 0x7F7F, some 0x7FC0, true⟩
  | .e4m3 => some ⟨4, 3, 7, 0x7E, some 0x7F, false⟩
  | .e5m2 => some ⟨5, 2, 15, 0x7B, some 0x7E, true⟩
  | .e3m2 => some ⟨3, 2, 3, 0x1F, none, false⟩
  | .e2m3 => some ⟨2, 3, 1, 0x1F, none, false⟩
  | .e2m1 => some ⟨2, 1, 1, 0x7, none, false⟩
  | _ => none

/-- The range of an integer format (Table 2-1). -/
def Fmt.int? : Fmt → Option (Int × Int)
  | .int32 => some (-2147483648, 2147483647)
  | .int16 => some (-32768, 32767)
  | .int8 => some (-128, 127)
  | .int4 => some (-8, 7)
  | .uint8 => some (0, 255)
  | _ => none

/-- The formats that may carry a block scale (R43). -/
def Fmt.mxOk : Fmt → Bool
  | .e4m3 | .e5m2 | .e3m2 | .e2m3 | .e2m1 | .int8 => true
  | _ => false

/-- The element exponent limit of Table 2-4. -/
def Fmt.emax : Fmt → Int
  | .e4m3 => 8 | .e5m2 => 15 | .e3m2 => 4 | .e2m3 => 2 | .e2m1 => 2 | _ => 0

/-- The rounding mode of an RMODE field (R47); 0b11 is refused at load. -/
def RMode.ofCode (c : Nat) : RMode :=
  match c % 4 with
  | 1 => .rz | 2 => .rs | _ => .rn

/-- Flags of lanes that raise them together OR together (R54). -/
def Flags.or (a b : Flags) : Flags :=
  ⟨a.nv || b.nv, a.overflow || b.overflow, a.uf || b.uf, a.mxnan || b.mxnan⟩

/-- FP_STATUS bits 3:0 of a set of flags (Table 2-7). -/
def Flags.toBits (f : Flags) : BitVec 32 :=
  (if f.nv then 8#32 else 0#32) ||| (if f.overflow then 4#32 else 0#32) ||| (if f.uf then 2#32 else 0#32)
    ||| (if f.mxnan then 1#32 else 0#32)

/-! ### Exact values -/

def Val.zero : Val := .fin false 0 0
def Val.one : Val := .fin false 1 0
def Val.isNan : Val → Bool
  | .nan _ => true
  | _ => false
def Val.isSnan : Val → Bool
  | .nan s => s
  | _ => false
def Val.isInf : Val → Bool
  | .inf _ => true
  | _ => false
def Val.isFinite : Val → Bool
  | .fin _ _ _ => true
  | _ => false
def Val.isZero : Val → Bool
  | .fin _ 0 _ => true
  | _ => false
def Val.isNeg : Val → Bool
  | .nan _ => false
  | .inf n => n
  | .fin n _ _ => n
def Val.neg : Val → Val
  | .nan s => .nan s
  | .inf n => .inf (!n)
  | .fin n m e => .fin (!n) m e
def Val.abs : Val → Val
  | .nan s => .nan s
  | .inf _ => .inf false
  | .fin _ m e => .fin false m e
/-- The value of an integer. -/
def Val.ofInt (i : Int) : Val := .fin (decide (i < 0)) i.natAbs 0
/-- A value times 2^k, exact. -/
def Val.scale (v : Val) (k : Int) : Val :=
  match v with
  | .fin n m e => .fin n m (e + k)
  | w => w

/-- Exponent of the leading bit of man * 2^exp (floor_log2 of R46), man not zero. -/
def flog2 (man : Nat) (exp : Int) : Int := (man.log2 : Int) + exp

/-- The signed mantissa of a finite value on the grid 2^e, e at most its exponent. -/
def signedMan (n : Bool) (m : Nat) (x e : Int) : Int :=
  let k : Int := (m <<< (x - e).toNat : Nat)
  if n then -k else k

/-- Exact sum with the special-value rules of IEEE 754 (R53, R61): an exact cancellation gives +0. -/
def Val.add (a b : Val) : Val :=
  match a, b with
  | .nan s, .nan t => .nan (s || t)
  | .nan s, _ => .nan s
  | _, .nan t => .nan t
  | .inf n, .inf m => if n = m then .inf n else .nan false
  | .inf n, _ => .inf n
  | _, .inf m => .inf m
  | .fin n x e, .fin m y f =>
    let g := min e f
    let k := signedMan n x e g + signedMan m y f g
    if k = 0 then .fin (n && m && x == 0 && y == 0) 0 0
    else .fin (decide (k < 0)) k.natAbs g

def Val.sub (a b : Val) : Val := a.add b.neg

/-- Exact product with the special-value rules of IEEE 754 (R53, R61). -/
def Val.mul (a b : Val) : Val :=
  match a, b with
  | .nan s, .nan t => .nan (s || t)
  | .nan s, _ => .nan s
  | _, .nan t => .nan t
  | .inf n, .inf m => .inf (n != m)
  | .inf n, .fin m y _ => if y = 0 then .nan false else .inf (n != m)
  | .fin n x _, .inf m => if x = 0 then .nan false else .inf (n != m)
  | .fin n x e, .fin m y f => .fin (n != m) (x * y) (e + f)

/-- Order of two finite magnitudes m * 2^e. -/
def dyCompare (m : Nat) (e : Int) (m' : Nat) (e' : Int) : Ordering :=
  let g := min e e'
  compare (m <<< (e - g).toNat) (m' <<< (e' - g).toNat)

/-- Order of two values that are not NaN, zeros equal. -/
def Val.cmp (a b : Val) : Ordering :=
  match a, b with
  | .inf n, .inf m => if n = m then .eq else if n then .lt else .gt
  | .inf n, _ => if n then .lt else .gt
  | _, .inf m => if m then .gt else .lt
  | .fin n x e, .fin m y f =>
    let g := min e f
    compare (signedMan n x e g) (signedMan m y f g)
  | _, _ => .eq

/-- Invalid operation: a NaN formed from operands none of which is a NaN, or a signalling operand (R38, Table 2-7). -/
def nvOf (args : List Val) (r : Val) : Bool :=
  args.any Val.isSnan || (r.isNan && !args.any Val.isNan)

/-! ### Decoding elements -/

/-- The value of a floating-point encoding (R35, R36). A NaN is signalling where the format is one of IEEE 754's or
FP8E5M2 and its top fraction bit is clear (DEDUCED: log 3). -/
def decodeFloat (p : FloatFmt) (x : Nat) : Val :=
  let s := x.testBit (p.ebits + p.mbits)
  let e := bits x (p.ebits + p.mbits - 1) p.mbits
  let f := x % 2 ^ p.mbits
  let mag := x % 2 ^ (p.ebits + p.mbits)
  if mag > p.maxEnc then
    if p.hasInf && f == 0 then .inf s
    else .nan (p.hasInf && !f.testBit (p.mbits - 1))
  else if e = 0 then .fin s f (1 - p.bias - p.mbits)
  else .fin s (2 ^ p.mbits + f) (e - p.bias - p.mbits)

/-- Two's complement value of the w low bits of x. -/
def toSigned (w x : Nat) : Int :=
  let y := x % 2 ^ w
  if y.testBit (w - 1) then (y : Int) - 2 ^ w else y

/-- The exact value of one element (R35, R39, R40); an FP32C pair has the value S + C by IEEE 754 addition, so the pair (-0, +0) reads
+0, and a pair of opposite infinities reads a quiet NaN whose reading sets no flag (both DESIGN CHOICE, log 108). -/
def decodeElem (f : Fmt) (x : Nat) : Val :=
  match f with
  | .int32 => Val.ofInt (toSigned 32 x)
  | .int16 => Val.ofInt (toSigned 16 x)
  | .int8 => Val.ofInt (toSigned 8 x)
  | .int4 => Val.ofInt (toSigned 4 x)
  | .uint8 => Val.ofInt (x % 256 : Nat)
  | .spin1 => if x.testBit 0 then .one else Val.one.neg
  | .fp32c =>
    (decodeFloat ⟨8, 23, 127, 0x7F7FFFFF, some 0x7FC00000, true⟩ (bits x 63 32)).add
      (decodeFloat ⟨8, 23, 127, 0x7F7FFFFF, some 0x7FC00000, true⟩ (bits x 31 0))
  | f =>
    match f.float? with
    | some p => decodeFloat p x
    | none => .zero

/-- The value of an element under an E8M0 block scale (R45): INT8 elements stand for the integer times 2^-6. -/
def decodeScaled (f : Fmt) (scale x : Nat) : Val :=
  if scale % 256 = 255 then .nan false
  else
    let v := decodeElem f x
    let k : Int := (scale % 256 : Nat)
    (if f = .int8 then v.scale (-6) else v).scale (k - 127)

/-! ### Rounding -/

/-- R55: whether the stochastic rounding of a magnitude rounds up, from the five bits below the grid. -/
def rsRoundUp (rem sh r : Nat) : Bool := decide (r % 16 < ((rem * 32) >>> sh + 1) / 2)

/-- Whether man * 2^-sh, with remainder rem below the grid, rounds up (R47, R55). -/
def roundUp (mode : RMode) (lo rem sh r : Nat) : Bool :=
  match mode with
  | .rn => decide (2 * rem > 2 ^ sh) || (decide (2 * rem = 2 ^ sh) && lo.testBit 0)
  | .rz => false
  | .rs => rsRoundUp rem sh r

/-- man * 2^exp rounded to a multiple of 2^q: the multiple, and whether the value was changed. -/
def roundGrid (mode : RMode) (r man : Nat) (exp q : Int) : Nat × Bool :=
  if q ≤ exp then (man <<< (exp - q).toNat, false)
  else
    let sh := (q - exp).toNat
    let lo := man >>> sh
    let rem := man % 2 ^ sh
    (if roundUp mode lo rem sh r then lo + 1 else lo, rem != 0)

/-- The encoding, sign clear, of n * 2^q with q the grid that rounding used (n at most 2^(mbits+1)). -/
def encodeMag (p : FloatFmt) (n : Nat) (q : Int) : Nat :=
  if n < 2 ^ p.mbits then n
  else if n = 2 ^ (p.mbits + 1) then (q + 1 + p.mbits + p.bias).toNat <<< p.mbits
  else ((q + p.mbits + p.bias).toNat <<< p.mbits) + (n - 2 ^ p.mbits)

def FloatFmt.signBit (p : FloatFmt) (neg : Bool) : Nat :=
  if neg then 2 ^ (p.ebits + p.mbits) else 0

/-- The infinity encoding, sign clear (Table 2-3). -/
def FloatFmt.infEnc (p : FloatFmt) : Nat := (2 ^ p.ebits - 1) <<< p.mbits

/-- What a floating-point destination writes on overflow (Table 2-6). `block`: an element of a scaled block saturates
whatever SAT says (R46). -/
def overflowEnc (p : FloatFmt) (mode : RMode) (sat block : Bool) (neg : Bool) : Nat :=
  if block || sat || mode == .rz then p.signBit neg + p.maxEnc
  else if p.hasInf then p.signBit neg + p.infEnc
  else match p.canonNan with
    | some c => c
    | none => p.signBit neg + p.maxEnc

/-- One value rounded once into a floating-point format (R48, R51, R52, R55). -/
def toFloat (p : FloatFmt) (mode : RMode) (sat block : Bool) (r : Nat) (v : Val) : Nat × Flags :=
  match v with
  | .nan s =>
    match p.canonNan with
    | some c => (c, { nv := s })
    | none => (0, { nv := true })
  | .inf n =>
    if p.hasInf then (p.signBit n + p.infEnc, {})
    else match p.canonNan with
      | some c => (if sat then p.signBit n + p.maxEnc else c, { overflow := true })
      | none => (p.signBit n + p.maxEnc, { overflow := true })
  | .fin n m e =>
    if m = 0 then (p.signBit n, {})
    else
      let emin := 1 - p.bias
      let q := max (flog2 m e) emin - p.mbits
      let k := roundGrid mode r m e q
      let top := 2 ^ p.mbits + p.maxEnc % 2 ^ p.mbits
      let topE := (p.maxEnc >>> p.mbits : Nat) - p.bias - p.mbits
      if dyCompare k.1 q top topE = .gt then (overflowEnc p mode sat block n, { overflow := true })
      else (p.signBit n + encodeMag p k.1 q, { uf := k.2 && decide (k.1 < 2 ^ p.mbits) })

/-- One value rounded once into an integer format, on the grid `step` (0, or -6 for an INT8 block element), clamped to
the format's range (R50; R45, R46 for a block element); a non-zero value written as zero underflows (R52; log 109). A negative value,
SPIN1's -1 among them, clamps to 0 in UINT8 with OF (R50 before R49; DESIGN CHOICE, log 110). -/
def toInt (w : Nat) (range : Int × Int) (step : Int) (mode : RMode) (r : Nat) (v : Val) : Nat × Flags :=
  let enc (i : Int) : Nat := (i % (2 ^ w : Nat)).toNat
  match v with
  | .nan _ => (0, { nv := true })
  | .inf n => (enc (if n then range.1 else range.2), { overflow := true })
  | .fin n m e =>
    let k := (roundGrid mode r m e step).1
    let i : Int := if n then -(k : Int) else k
    let j := if i < range.1 then range.1 else if range.2 < i then range.2 else i
    (enc j, { overflow := j != i, uf := m != 0 && j == 0 })

/-- The range of an INT8 block element in units of 2^-6: a magnitude past 1.984375 saturates to it with its sign (Table 2-4, R46). -/
def blockInt8 : Int × Int := (-127, 127)

/-- FP32's parameters (Table 2-2). -/
def fp32 : FloatFmt := ⟨8, 23, 127, 0x7F7FFFFF, some 0x7FC00000, true⟩

/-- The value of an FP32 encoding. -/
def f32 (x : BitVec 32) : Val := decodeFloat fp32 x.toNat

/-- Rounding to FP32 by RN with no saturation, as an encoding. -/
def rn32Enc (v : Val) : BitVec 32 := BitVec.ofNat 32 (toFloat fp32 .rn false false 0 v).1

/-- rn32 of R63 and R89: rounded to FP32 by RN, subnormals kept. -/
def rn32 (v : Val) : Val := decodeFloat fp32 (toFloat fp32 .rn false false 0 v).1

/-- An FP32C pair: S in the high word, C in the low word (Table 2-1); also an extreme with its index (R82). -/
structure Pair where
  s : BitVec 32
  c : BitVec 32
  deriving DecidableEq, Repr

def Pair.zero : Pair := ⟨0, 0⟩
/-- The 64 bits of a pair: S in bits 63:32. -/
def Pair.toNat (p : Pair) : Nat := p.s.toNat * 2 ^ 32 + p.c.toNat
def Pair.ofNat (x : Nat) : Pair := ⟨BitVec.ofNat 32 (x / 2 ^ 32), BitVec.ofNat 32 x⟩
/-- The exact value S + C (R40). -/
def Pair.val (p : Pair) : Val := (f32 p.s).add (f32 p.c)

/-- R40: the normalised pair of an exact S + C; an infinity or a NaN stands in S with C = +0. -/
def normPair (v : Val) : Pair :=
  let s := rn32 v
  if s.isFinite then ⟨rn32Enc v, rn32Enc (v.sub s)⟩ else ⟨rn32Enc v, 0⟩

/-- Whether a pair is in the normalised form of R40: a finite S that is the rounded sum, or an infinity or the canonical NaN with C = +0. -/
def Pair.normal (p : Pair) : Bool :=
  let v := p.val
  if v.isFinite then decide ((rn32 v).cmp (f32 p.s) = .eq) else decide (p = normPair v)

/-- A pair as an operand or a result: any pair is read as its exact S + C and written normalised (R40); one that is normalised stays as it
is, with the sign of its zero. -/
def Pair.norm (p : Pair) : Pair := if p.normal then p else normPair p.val

/-- A signalling NaN among a pair's parts (R38). -/
def Pair.snan (p : Pair) : Bool := (f32 p.s).isSnan || (f32 p.c).isSnan

/-- What taking a pair raises: NV for a signalling NaN (R38), OF where a finite S + C rounds beyond FP32 (R51). -/
def Pair.normFlags (p : Pair) : Flags := { nv := p.snan, overflow := p.val.isFinite && (rn32 p.val).isInf }

/-- A value that is zero or below the smallest normal of FP32 (R52). -/
def Val.tiny32 : Val → Bool
  | .fin _ m e => decide (m = 0) || decide (flog2 m e < -126)
  | _ => false

/-- R49: conversion into FP32C. S is rounded by RMODE and SAT, C is the remainder rounded by RN, and the pair is then
normalised; when S overflows, in its rounding or in the normalisation, or is not finite, Table 2-6 gives S and C is +0 (R51). UF tells that
the written S + C is zero or subnormal and differs (R52). -/
def toFp32c (mode : RMode) (sat : Bool) (r : Nat) (v : Val) : Pair × Flags :=
  let s := toFloat fp32 mode sat false r v
  let sv := decodeFloat fp32 s.1
  if s.2.overflow || !sv.isFinite then (⟨BitVec.ofNat 32 s.1, 0⟩, { s.2 with uf := false })
  else
    let c := rn32 (v.sub sv)
    let t := sv.add c
    if t.isZero then (⟨BitVec.ofNat 32 s.1, 0⟩, { nv := s.2.nv, uf := !v.isZero })
    else if (rn32 t).isInf then
      (⟨BitVec.ofNat 32 (overflowEnc fp32 mode sat false t.isNeg), 0⟩, { nv := s.2.nv, overflow := true })
    else (normPair t, { nv := s.2.nv, uf := t.tiny32 && t.cmp v != .eq })

/-- The conversion control byte CVT_CTRL. -/
structure Cvt where
  fmt : Fmt
  mode : RMode
  sat : Bool
  mx : Bool
  deriving DecidableEq, Repr

def Cvt.ofByte (x : Nat) : Cvt :=
  ⟨Fmt.ofCode (bits x 7 4), RMode.ofCode (bits x 3 2), x.testBit 1, x.testBit 0⟩

/-- One value converted into an unscaled format, rounded once (R39, R48-R52). r is the element's four Riffle bits. -/
def convert (c : Cvt) (r : Nat) (v : Val) : Nat × Flags :=
  match c.fmt with
  | .spin1 =>
    match v with
    | .nan _ => (1, { nv := true })
    | w => (if w.isNeg then 0 else 1, {})
  | .fp32c => let p := toFp32c c.mode c.sat r v; (p.1.toNat, p.2)
  | f =>
    match f.float?, f.int? with
    | some p, _ => toFloat p c.mode c.sat false r v
    | none, some rg => toInt f.width rg 0 c.mode r v
    | none, none => (0, {})

/-- mx_scale of R46: the E8M0 byte of one block of exact source values. -/
def mxScale (f : Fmt) (xs : List Val) : Nat :=
  if xs.any (fun v => !v.isFinite) then 255
  else
    let amax := xs.foldl (fun a v => if (v.abs.cmp a) = .gt then v.abs else a) Val.zero
    match amax with
    | .fin _ m e =>
      if m = 0 then 127
      else (min 127 (max (-127) (flog2 m e - f.emax)) + 127).toNat
    | _ => 255

/-- One element of a scaled block (R46). Under the scale 0xFF every element is the all-zero encoding, and only a
signalling source sets NV. -/
def convertElem (f : Fmt) (mode : RMode) (scale r : Nat) (v : Val) : Nat × Flags :=
  if scale = 255 then (0, { nv := v.isSnan, mxnan := true })
  else
    let w := v.scale (127 - (scale : Int))
    match f.float?, f.int? with
    | some p, _ => toFloat p mode true true r w
    | none, some _ => toInt f.width blockInt8 (-6) mode r w
    | none, none => (0, {})

/-- A row cut into blocks of 32 elements, the last one short (R44). -/
def blocks32 {α : Type} : Nat → List α → List (List α)
  | 0, _ => []
  | _, [] => []
  | n + 1, xs => xs.take 32 :: blocks32 n (xs.drop 32)

/-- One row of exact values converted: the element encodings, the scale bytes (none when MX is clear) and the flags.
rbits gives each element its four Riffle bits. -/
def convertRow (c : Cvt) (rbits : Nat → Nat) (row : List Val) : List Nat × List Nat × Flags :=
  if c.mx then
    let bs := blocks32 (row.length) row
    let scales := bs.map (mxScale c.fmt)
    let es := row.mapIdx fun j v => convertElem c.fmt c.mode (scales.getD (j / 32) 127) (rbits j) v
    (es.map (·.1), scales, es.foldl (fun f e => f.or e.2) {})
  else
    let es := row.mapIdx fun j v => convert c (rbits j) v
    (es.map (·.1), [], es.foldl (fun f e => f.or e.2) {})

/-! ### Packed rows (R41, R42) -/

/-- Bytes of a packed row of n elements: whole bytes, or whole 3-byte groups for FP6 (R42). -/
def rowBytes (f : Fmt) (n : Nat) : Nat :=
  match f with
  | .e3m2 | .e2m3 => (n + 3) / 4 * 3
  | f => (n * f.width + 7) / 8

/-- The little-endian number of a packed row: element j at bit j * width (R41). -/
def packNat (w : Nat) : List Nat → Nat
  | [] => 0
  | x :: xs => x % 2 ^ w + 2 ^ w * packNat w xs

/-- The n elements of a packed row. -/
def unpackNat (w n x : Nat) : List Nat := (List.range n).map fun j => (x >>> (w * j)) % 2 ^ w

end Sys2Proof.Machine
end

