-- ==== Sys2Proof/Machine/Pairs.lean ====
section
/-! DEFINITION. FP32C pairs and extremes: the compensated sum of R63, the combine of R89, the order of R83 and the list
merge of R97. -/

namespace Sys2Proof.Machine

/-- Encoding of an FP32 value: the canonical NaN for every NaN (R38). -/
def encF32 (v : Val) : BitVec 32 := rn32Enc v

/-- cell_sum of R63: an exact term added into a pair, with the flags it raises (R64). Its roundings raise no UF: R63 and R64 name OF and NV
only (DESIGN CHOICE, log 111). -/
def cellSum (x : Val) (p : Pair) : Pair × Flags :=
  let s := f32 p.s
  let c := f32 p.c
  let xh := rn32 x
  let ofx := x.isFinite && xh.isInf
  if !x.isFinite || !s.isFinite then
    let r := s.add xh
    (⟨encF32 r, 0⟩, { nv := x.isSnan || nvOf [s, xh] r, overflow := ofx })
  else if xh.isInf then (⟨encF32 xh, 0⟩, { overflow := true })
  else
    let xl := rn32 (x.sub xh)
    let s1 := rn32 (s.add xh)
    if s1.isInf then (⟨encF32 s1, 0⟩, { overflow := true })
    else
      let bb := rn32 (s1.sub s)
      let e1 := rn32 ((s.sub (rn32 (s1.sub bb))).add (xh.sub bb))
      let t := rn32 (c.add (rn32 (e1.add xl)))
      let s2 := rn32 (s1.add t)
      let c2 := rn32 (t.sub (rn32 (s2.sub s1)))
      if s2.isInf then (⟨encF32 s2, 0⟩, { overflow := true })
      else (⟨encF32 s2, encF32 c2⟩, {})

/-- chain_combine of R89 on two pairs normalised by R40, with the flags it raises. -/
def combineNormal (a b : Pair) : Pair × Flags :=
  let sa := f32 a.s
  let sb := f32 b.s
  if !sa.isFinite || !sb.isFinite then
    let r := sa.add sb
    (⟨encF32 r, 0⟩, { nv := nvOf [sa, sb] r })
  else
    let s1 := rn32 (sa.add sb)
    if s1.isInf then (⟨encF32 s1, 0⟩, { overflow := true })
    else
      let bb := rn32 (s1.sub sa)
      let e1 := rn32 ((sa.sub (rn32 (s1.sub bb))).add (sb.sub bb))
      let t := rn32 ((rn32 ((f32 a.c).add (f32 b.c))).add e1)
      let s2 := rn32 (s1.add t)
      let c2 := rn32 (t.sub (rn32 (s2.sub s1)))
      if s2.isInf then (⟨encF32 s2, 0⟩, { overflow := true })
      else (⟨encF32 s2, encF32 c2⟩, {})

/-- chain_combine of R89: a combined with b, each taken as its exact S + C (R40), with the flags it raises. -/
def chainCombine (a b : Pair) : Pair × Flags :=
  let r := combineNormal a.norm b.norm
  (r.1, (a.normFlags.or b.normFlags).or r.2)

/-- Whether an FP32 encoding is a NaN (Table 2-3). -/
def isNan32 (x : BitVec 32) : Bool := (f32 x).isNan

/-- Place of an FP32 value that is no NaN in the order -inf < ... < -0 < +0 < ... < +inf (R83). -/
def rank32 (x : BitVec 32) : Nat :=
  if x.toNat < 2 ^ 31 then 2 ^ 31 + x.toNat else 2 ^ 32 - 1 - x.toNat

/-- Place in the MAXI order: a NaN ranks above everything (R83). -/
def rankMaxi (x : BitVec 32) : Nat := if isNan32 x then 2 ^ 33 else rank32 x
/-- Place in the MINI order, best first as the larger number: a NaN ranks below everything and so wins (R83). -/
def rankMini (x : BitVec 32) : Nat := if isNan32 x then 2 ^ 33 else 2 ^ 32 - rank32 x

/-- Whether the candidate (t, j) replaces the held (v, i) (R83); `mini` selects MINI. -/
def extremeBetter (mini : Bool) (cand held : Pair) : Bool :=
  let rk := if mini then rankMini else rankMaxi
  decide (rk held.s < rk cand.s) || (decide (rk cand.s = rk held.s) && decide (cand.c.toNat < held.c.toNat))

/-- Every NaN is held as the canonical NaN (R83). -/
def canonExtreme (p : Pair) : Pair := if isNan32 p.s then ⟨0x7FC00000, p.c⟩ else p

/-- The extreme of the held entry and a candidate; a NaN that is kept is held as the canonical NaN (R38, R83, R96). -/
def extremeStep (mini : Bool) (held cand : Pair) : Pair :=
  canonExtreme (if extremeBetter mini cand held then cand else held)

/-- NV for a signalling NaN among the values of entries (R38). -/
def extremeFlags (ps : List Pair) : Flags := { nv := ps.any fun p => (f32 p.s).isSnan }

/-- The entry an accumulation with no candidate holds (R75, R85). -/
def extremeEmpty (mini : Bool) : Pair := ⟨if mini then 0x7F800000 else 0xFF800000, 0xFFFFFFFF⟩

/-- R97: two lists sorted best-first merged into one, the running list's entry first among equals. -/
def mergeBest : Nat → List Pair → List Pair → List Pair
  | 0, _, _ => []
  | _, [], ys => ys
  | _, xs, [] => xs
  | n + 1, x :: xs, y :: ys =>
    if extremeBetter false y x then y :: mergeBest n (x :: xs) ys else x :: mergeBest n xs (y :: ys)

/-- The best k entries of a running list and a member's list (R97), NaNs canonical (R38), padded with (-inf, 0xFFFF_FFFF). -/
def topkMerge (k : Nat) (running member : List Pair) : List Pair :=
  let m := ((mergeBest (running.length + member.length) running member).take k).map canonExtreme
  m ++ List.replicate (k - m.length) (extremeEmpty false)

end Sys2Proof.Machine
end

