-- ==== Sys2Proof/Machine/ArrayState.lean ====
section
/-! DEFINITION. State of one tile's matrix array: pairs, counters, issues in flight, drains and the spill buffer (R60-R87). -/

namespace Sys2Proof.Machine

/-- One issue in flight (R60, R62): its ticket, the ACC_CTRL it was issued with, and its operands. An accumulator load is
an issue that carries the pairs it writes (R81). -/
structure Issue where
  ticket : BitVec 16
  /-- ACC_CTRL in effect at the issue (R71). -/
  ctrl : BitVec 32
  /-- Products per cell (Table 3-1). -/
  m : Nat := 0
  /-- Products with k below K, the candidates of R83. -/
  real : Nat := 0
  /-- Logical reduction index of the first product (R60). -/
  index : BitVec 32 := 0
  /-- 64 rows of A, m values each. -/
  a : List (List Val) := []
  /-- 64 columns of B, m values each. -/
  b : List (List Val) := []
  /-- The pairs an accumulator load writes. -/
  load : Option (List Pair) := none
  deriving DecidableEq, Repr

/-- A drain in the drain queue with its shadow buffer (R73-R77). -/
structure Drain where
  w0 : Word
  w1 : Word
  w2 : Word
  /-- ACC_CTRL at the drain's place in the stream (R71, R75). -/
  ctrl : BitVec 32
  /-- Ticket the drain watches. -/
  watched : BitVec 16
  /-- ISEQ the instruction took (R276). -/
  iseq : BitVec 32
  /-- The drained values, once the watched ticket has retired: the pairs, or the extremes of MAXI and MINI. -/
  shadow : Option (List Pair) := none
  deriving DecidableEq, Repr

/-- The matrix array of one tile. -/
structure ArrayState where
  /-- The S and C registers of the 64 x 64 cells, row by row (R63, R83). -/
  pairs : List Pair := List.replicate 4096 Pair.zero
  /-- ACC_STATUS.TERM_CNT, 25 bits (R67). -/
  termCnt : Nat := 0
  /-- ACC_STATUS.SEG_CNT, 5 bits (R68). -/
  segCnt : Nat := 0
  /-- ACC_STATUS.ACC_LONG (R67). -/
  accLong : Bool := false
  /-- ACC_CTRL (Table 3-3). -/
  ctrl : BitVec 32 := 0x20
  /-- Ticket of the next issue (R62). -/
  ticket : BitVec 16 := 0
  /-- Issues in flight, oldest first, at most seven (R62). -/
  issues : List Issue := []
  /-- The 32 KiB spill buffer while a combination is outstanding, with the slot line it goes to (R68). -/
  spillBuf : Option (List Pair × Nat) := none
  /-- The mark that the spill slot is empty (R68, R75). -/
  slotEmpty : Bool := true
  /-- The bytes of each slot that SPILL_LINE has named in an accumulation with a spill, by line, as it found them or as the last combination
  left them, empty outside one; and the mark that the program has written a slot (R509). -/
  slotSeen : Tab (List Byte) := []
  slotOpen : Bool := false
  /-- The drain-queue registers: the three words of each of two entries, one for a shadow buffer (R76, R77; log 114). -/
  drainRegs : List Word := [0, 0, 0, 0, 0, 0]
  /-- Drains dispatched and not complete, oldest first, one shadow buffer each (R76). -/
  drains : List Drain := []
  /-- Array dispatch stopped by a parity or chain error (R87, R95). -/
  stopped : Bool := false
  /-- A long issue under SPILL = 0 since the job started: the audit flag ACC_UNBOUNDED (R69). -/
  unbounded : Bool := false
  /-- A CANONICAL accumulation passed 4,096 terms: a chain error to raise (R95). -/
  tooLong : Bool := false
  deriving DecidableEq, Repr

end Sys2Proof.Machine
end

