-- ==== Sys2Proof/Machine/Operands.lean ====
section
/-! DEFINITION. Operand forms in tile SRAM: rows of packed elements with a pitch or packed back to back, and the scale
bytes after them (R41-R45, R78, R79, R355-R357). -/

namespace Sys2Proof.Machine

/-- First line boundary at or after a byte address. -/
def lineUp (a : Nat) : Nat := (a + 63) / 64 * 64

/-- A tensor of `rows` rows of `cols` elements from line `line`; a pitch of 0 packs the rows (R42, R78, R355). -/
structure Layout where
  line : Nat
  pitch : Nat
  rows : Nat
  cols : Nat
  fmt : Fmt
  mx : Bool
  deriving DecidableEq, Repr

/-- Bytes from one row to the next (R42, R355). -/
def Layout.stride (l : Layout) : Nat := if l.pitch = 0 then rowBytes l.fmt l.cols else l.pitch * 64

/-- Byte address of a row. -/
def Layout.rowAddr (l : Layout) (r : Nat) : Nat := l.line * 64 + r * l.stride

/-- First byte after the last element row. -/
def Layout.elemEnd (l : Layout) : Nat := l.rowAddr (l.rows - 1) + rowBytes l.fmt l.cols

/-- Where the scale bytes start: the first line boundary after the last row (R79, R355, R357). -/
def Layout.scaleBase (l : Layout) : Nat := lineUp l.elemEnd

/-- Scale bytes of one row, one for every 32 elements (R44). -/
def Layout.scaleRow (l : Layout) : Nat := (l.cols + 31) / 32

/-- First byte after the tensor and its scale bytes. -/
def Layout.endAddr (l : Layout) : Nat := if l.mx then l.scaleBase + l.rows * l.scaleRow else l.elemEnd

/-- Exact values of one row (R44, R45). -/
def Layout.readRow (l : Layout) (m : Mem) (r : Nat) : List Val :=
  let es := unpackNat l.fmt.width l.cols (leNat (m.read (l.rowAddr r) (rowBytes l.fmt l.cols)))
  if l.mx then
    let sc := m.read (l.scaleBase + r * l.scaleRow) l.scaleRow
    es.mapIdx fun j x => decodeScaled l.fmt (sc.getD (j / 32) 127).toNat x
  else es.map (decodeElem l.fmt)

/-- Exact values of every row. -/
def Layout.readRows (l : Layout) (m : Mem) : List (List Val) := (List.range l.rows).map (l.readRow m)

/-- The memory writes of one row of encodings and scale bytes. -/
def Layout.rowWrites (l : Layout) (r : Nat) (es scales : List Nat) : List (Nat × List Byte) :=
  (l.rowAddr r, leBytes (rowBytes l.fmt l.cols) (packNat l.fmt.width es)) ::
    (if l.mx then [(l.scaleBase + r * l.scaleRow, scales.map (BitVec.ofNat 8))] else [])

/-- Several runs of bytes written in order. -/
def Mem.writeAll (m : Mem) (ws : List (Nat × List Byte)) : Mem := ws.foldl (fun m w => m.write w.1 w.2) m

/-- The entries of 8 bytes from a byte address (R96, R101). -/
def readPairs (m : Mem) (a n : Nat) : List Pair := (List.range n).map fun k => Pair.ofNat (m.nat (a + 8 * k) 8)

/-- Entries as bytes (R6). -/
def pairBytes (ps : List Pair) : List Byte := ps.flatMap fun p => leBytes 8 p.toNat

end Sys2Proof.Machine
end

