-- ==== Sys2Proof/Machine/ArrayUnit.lean ====
section
/-! DEFINITION. What the matrix array of one tile does: issue, retire, spill, load, drain (R60-R87). The functions act on
the array's own state and on the bytes of tile SRAM. -/

namespace Sys2Proof.Machine

/-- ACC_MODE of an ACC_CTRL value (Table 3-4): 0 SUM, 1 MAXI, 2 MINI. -/
def accMode (ctrl : BitVec 32) : Nat := bits ctrl.toNat 7 6
/-- The spill slot's first line (Table 3-3). -/
def spillLine (ctrl : BitVec 32) : Nat := bits ctrl.toNat 31 16
def spillOn (ctrl : BitVec 32) : Bool := ctrl.toNat.testBit 5
def suMode (ctrl : BitVec 32) : Bool := ctrl.toNat.testBit 4

/-- ACC_STATUS as the tile reports it (Table 3-5). -/
def ArrayState.status (a : ArrayState) : BitVec 32 :=
  BitVec.ofNat 32 ((if a.accLong then 2 ^ 31 else 0) + a.segCnt % 32 * 2 ^ 25 + a.termCnt % 2 ^ 25)

/-- Products per issue (Table 3-1). -/
def issueWidth (a b : Fmt) : Nat :=
  let narrow : Fmt → Bool := fun f => match f with
    | .e3m2 | .e2m3 | .e2m1 | .int4 => true
    | _ => false
  if a = .spin1 || b = .spin1 then 4 else if narrow a && narrow b then 2 else 1

/-- An array multiply (Table 12-21). -/
structure Mma where
  aFmt : Fmt
  bFmt : Fmt
  aMx : Bool
  bMx : Bool
  k : Nat
  kBase : Nat
  aLine : Nat
  bLine : Nat
  aPitch : Nat
  bPitch : Nat
  deriving DecidableEq, Repr

/-- The operand words of an MMA read by Table 12-21. -/
def Mma.ofWords (w0 w1 : Word) : Mma :=
  let x := w0.toNat
  let y := w1.toNat
  { aFmt := Fmt.ofCode (bits x 63 60), bFmt := Fmt.ofCode (bits x 59 56), aMx := bit x 55, bMx := bit x 54,
    k := bits x 47 32, kBase := bits x 31 0, aLine := bits y 63 48, bLine := bits y 47 32,
    aPitch := bits y 31 24, bPitch := bits y 23 16 }

def Mma.aLayout (i : Mma) : Layout := ⟨i.aLine, i.aPitch, 64, i.k, i.aFmt, i.aMx⟩
def Mma.bLayout (i : Mma) : Layout := ⟨i.bLine, i.bPitch, 64, i.k, i.bFmt, i.bMx⟩

/-- A group of m values, padded with zero operands (R60). -/
def padGroup (m : Nat) (xs : List Val) : List Val := xs ++ List.replicate (m - xs.length) Val.zero

/-- The issues of a multiply over the rows of A and of B, n of them from product k0 on; tickets are given at issue. -/
def mmaIssues (ctrl : BitVec 32) (m : Nat) : Nat → Nat → Nat → Nat → List (List Val) → List (List Val) → List Issue
  | 0, _, _, _, _, _ => []
  | n + 1, k, kBase, k0, a, b =>
    { ticket := 0, ctrl := ctrl, m := m, real := min m (k - k0), index := BitVec.ofNat 32 (kBase + k0),
      a := a.map fun r => padGroup m (r.take m), b := b.map fun r => padGroup m (r.take m) } ::
      mmaIssues ctrl m n k kBase (k0 + m) (a.map (·.drop m)) (b.map (·.drop m))

/-- The issues of an MMA, in ascending k (R60). -/
def Mma.issues (i : Mma) (ctrl : BitVec 32) (sram : Mem) : List Issue :=
  let m := issueWidth i.aFmt i.bFmt
  mmaIssues ctrl m ((i.k + m - 1) / m) i.k i.kBase 0 (i.aLayout.readRows sram) (i.bLayout.readRows sram)

/-- The exact term of R61 with its invalid flag: the m products summed by IEEE 754's rules. -/
def termOf (xs : List (Val × Val)) : Val × Bool :=
  match xs with
  | [] => (.zero, false)
  | x :: rest =>
    let p := x.1.mul x.2
    rest.foldl (fun acc y =>
      let q := y.1.mul y.2
      let s := acc.1.add q
      (s, acc.2 || nvOf [y.1, y.2] q || nvOf [acc.1, q] s)) (p, nvOf [x.1, x.2] p)

/-- One cell in SUM (R63). -/
def sumCell (a b : List Val) (p : Pair) : Pair × Flags :=
  let t := termOf (a.zip b)
  let r := cellSum t.1 p
  (r.1, { r.2 with nv := r.2.nv || t.2 })

/-- One cell in MAXI or MINI: each product with k below K is a candidate, in ascending k (R83). The rounding of a candidate to FP32
raises neither OF nor UF: R83 names none (DESIGN CHOICE, log 112). -/
def extremeCell (mini : Bool) (real : Nat) (index : BitVec 32) (a b : List Val) (p : Pair) : Pair × Flags :=
  ((a.zip b).take real).zipIdx.foldl (fun acc xj =>
    let v := xj.1.1.mul xj.1.2
    (extremeStep mini acc.1 ⟨rn32Enc v, index + BitVec.ofNat 32 xj.2⟩,
      acc.2.or { nv := nvOf [xj.1.1, xj.1.2] v })) (p, if real = 0 then {} else extremeFlags [p])

/-- Every cell updated by a function of its row of A and its column of B. -/
def updateCells (f : List Val → List Val → Pair → Pair × Flags) (a b : List (List Val)) (ps : List Pair) :
    List Pair × Flags :=
  let rs := ((a.flatMap fun ra => b.map fun cb => (ra, cb)).zip ps).map fun x => f x.1.1 x.1.2 x.2
  (rs.map (·.1), rs.foldl (fun g r => g.or r.2) {})

/-- What a combination reads from the spill slot: (+0, +0) while it is empty (R68). -/
def slotPairs (empty : Bool) (sram : Mem) (line : Nat) : List Pair :=
  if empty then List.replicate 4096 Pair.zero else readPairs sram (line * 64) 4096

/-- Entry by entry combination (R89) with the flags it raises. -/
def combineAll (xs ys : List Pair) : List Pair × Flags :=
  let rs := (xs.zip ys).map fun p => chainCombine p.1 p.2
  (rs.map (·.1), rs.foldl (fun g r => g.or r.2) {})

/-- Array, SRAM and the flags raised, threaded through an operation. -/
structure ArrayFx where
  arr : ArrayState
  sram : Mem
  flags : Flags := {}
  deriving DecidableEq, Repr

/-- The slot's bytes are read: whether the program has written them since the accumulation last did, or since SPILL_LINE came to name them
(R509). -/
def ArrayFx.slotTouched (x : ArrayFx) (line : Nat) : Bool :=
  x.arr.slotOpen || match x.arr.slotSeen.find line with
    | some bs => decide (bs ≠ x.sram.read (line * 64) 32768)
    | none => false

/-- SPILL_LINE names a slot at a line: its bytes are those an accumulation with a spill counts on from now on (R509). -/
def ArrayFx.watchSlot (x : ArrayFx) (line : Nat) : ArrayFx :=
  { x with arr := { x.arr with slotSeen := x.arr.slotSeen.set line (x.sram.read (line * 64) 32768) } }

/-- A write of ACC_CTRL (R71). Within an accumulation with a spill a new SPILL_LINE moves the slot: what the program wrote into the old one
before counts against R509, and the new one holds what stands there now; issues in flight keep theirs. SU_MODE is the sequencer's: the
stream leaves it as it is (R135). -/
def ArrayFx.setCtrl (v : BitVec 32) (x : ArrayFx) : ArrayFx :=
  let old := spillLine x.arr.ctrl
  let y : ArrayFx := { x with arr := { x.arr with ctrl := (v &&& 0xFFFFFFEF) ||| (x.arr.ctrl &&& 0x10) } }
  if x.arr.slotSeen.isEmpty || decide (spillLine v = old) then y
  else
    let z : ArrayFx := { y with arr := { y.arr with slotOpen := x.slotTouched old } }
    if z.arr.slotSeen.has (spillLine v) && !z.arr.issues.isEmpty then z else z.watchSlot (spillLine v)

/-- Pairs that stand for what a slot the program has written yields: they depend on the slot's bytes alone (R509; log 21). -/
def openPairs (bs : List Byte) : List Pair :=
  (List.range 4096).map fun k => Pair.ofNat (leNat ((List.range 8).map fun i => Config.spillOpen bs (8 * k + i)))

/-- The vector engine finishes an outstanding spill combination: slot <- chain_combine(slot, buffer) (R68, R509). -/
def ArrayFx.spillCombine (x : ArrayFx) : ArrayFx :=
  match x.arr.spillBuf with
  | none => x
  | some (buf, line) =>
    let touched := x.slotTouched line
    let r := combineAll (slotPairs x.arr.slotEmpty x.sram line) buf
    let ps := if touched then openPairs (x.sram.read (line * 64) 32768) else r.1
    { arr := { x.arr with
        spillBuf := none, slotEmpty := false, slotSeen := x.arr.slotSeen.set line (pairBytes ps), slotOpen := touched }
      sram := x.sram.write (line * 64) (pairBytes ps)
      flags := x.flags.or r.2 }

/-- CLEAR of R75, in the mode at the drain's place in the stream. -/
def ArrayState.cleared (a : ArrayState) (mode : Nat) : ArrayState :=
  { a with
    pairs := List.replicate 4096 (if mode = 0 then Pair.zero else extremeEmpty (decide (mode = 2)))
    termCnt := 0, segCnt := 0, accLong := false, slotEmpty := true, spillBuf := none, slotSeen := [], slotOpen := false }

/-- The value a drain takes: the pairs, combined with the spill slot when segments were spilled (R70). A pending
combination is finished first. In MAXI and MINI, where nothing spills (R84), segments left by an earlier SUM stay out of the value: R70
gives no combine of extremes (DESIGN CHOICE, log 113). -/
def ArrayFx.drainedPairs (x : ArrayFx) (mode line : Nat) : ArrayFx × List Pair :=
  if mode = 0 && x.arr.segCnt != 0 then
    let y := x.spillCombine
    let r := combineAll (slotPairs y.arr.slotEmpty y.sram line) y.arr.pairs
    ({ y with flags := y.flags.or r.2 }, if y.slotTouched line then openPairs (y.sram.read (line * 64) 32768) else r.1)
  else (x, x.arr.pairs)

/-- The snapshot of one drain into its shadow buffer, with CLEAR (R74, R75). -/
def ArrayFx.snapshot (x : ArrayFx) (d : Drain) : ArrayFx × Drain :=
  let mode := accMode d.ctrl
  let r := x.drainedPairs mode (spillLine d.ctrl)
  let y := if bit d.w0.toNat 49 then { r.1 with arr := r.1.arr.cleared mode } else r.1
  (y, { d with shadow := some r.2 })

/-- The snapshots of every waiting drain that watches a ticket, in dispatch order. -/
def ArrayFx.snapshots (t : BitVec 16) : List Drain → ArrayFx → ArrayFx × List Drain
  | [], x => (x, [])
  | d :: ds, x =>
    if d.shadow = none && d.watched == t then
      let r := x.snapshot d
      let q := ArrayFx.snapshots t ds r.1
      (q.1, r.2 :: q.2)
    else
      let q := ArrayFx.snapshots t ds x
      (q.1, d :: q.2)

/-- The long issue of R67: a product count that would carry TERM_CNT to 2^25 or beyond. -/
def isLong (termCnt m : Nat) : Bool := decide (2 ^ 25 ≤ termCnt + m)

/-- Stages 5 to 7 of one issue that carries products (R63, R67-R69, R83, R84). -/
def ArrayFx.accumulate (x : ArrayFx) (i : Issue) : ArrayFx :=
  let mode := accMode i.ctrl
  let long := isLong x.arr.termCnt i.m
  let spill := long && spillOn i.ctrl && decide (mode = 0)
  let y := if spill then x.spillCombine else x
  let y := if spill && !y.arr.slotSeen.has (spillLine i.ctrl) then y.watchSlot (spillLine i.ctrl) else y
  let y := if spill && !y.arr.slotSeen.has (spillLine y.arr.ctrl) then y.watchSlot (spillLine y.arr.ctrl) else y
  let y := if spill then
      { y with arr := { y.arr with
          spillBuf := some (y.arr.pairs, spillLine i.ctrl)
          pairs := List.replicate 4096 Pair.zero
          termCnt := 0
          segCnt := min 31 (y.arr.segCnt + 1) } }
    else y
  let r := updateCells
    (if mode = 0 then sumCell else extremeCell (decide (mode = 2)) i.real i.index) i.a i.b y.arr.pairs
  { y with
    arr := { y.arr with
      pairs := r.1
      termCnt := min (2 ^ 25 - 1) (y.arr.termCnt + i.m)
      accLong := y.arr.accLong || long
      unbounded := y.arr.unbounded || (long && !spillOn i.ctrl) }
    flags := y.flags.or r.2 }

/-- An accumulator load in stage 6 (R81, R82). -/
def ArrayFx.loadPairs (x : ArrayFx) (i : Issue) (ps : List Pair) : ArrayFx :=
  let y := x.spillCombine
  { y with arr := { y.arr with
      pairs := ps, termCnt := if accMode i.ctrl = 0 then 1 else 0
      segCnt := 0, accLong := false, slotEmpty := true, slotSeen := [], slotOpen := false } }

/-- One issue leaves stage 7: pairs, counters, then the snapshots that watch its ticket (R62, R74). In CANONICAL mode an
issue that would pass 4,096 terms stops array dispatch and changes nothing else (R95). -/
def ArrayFx.retireIssue (canon : Bool) (x : ArrayFx) (i : Issue) : ArrayFx :=
  let y := match i.load with
    | some ps => x.loadPairs i ps
    | none =>
      if canon && decide (4096 < x.arr.termCnt + i.m) then
        { x with arr := { x.arr with stopped := true, tooLong := true } }
      else x.accumulate i
  let q := ArrayFx.snapshots i.ticket y.arr.drains y
  { q.1 with arr := { q.1.arr with drains := q.2 } }

/-- The oldest issue retires (R62). -/
def ArrayFx.retire (canon : Bool) (x : ArrayFx) : ArrayFx :=
  match x.arr.issues with
  | [] => x
  | i :: rest => ArrayFx.retireIssue canon { x with arr := { x.arr with issues := rest } } i

/-- n issues retire, oldest first. -/
def ArrayFx.retireN (canon : Bool) : Nat → ArrayFx → ArrayFx
  | 0, x => x
  | n + 1, x => ArrayFx.retireN canon n (x.retire canon)

/-- Every issue in flight retires (R86, R150). -/
def ArrayFx.retireAll (canon : Bool) (x : ArrayFx) : ArrayFx := ArrayFx.retireN canon x.arr.issues.length x

/-- One issue takes its ticket and enters stage 1; at most seven issues are in flight, so the oldest retires first when
seven are (R62). -/
def ArrayFx.push (canon : Bool) (x : ArrayFx) (i : Issue) : ArrayFx :=
  let y := if 7 ≤ x.arr.issues.length then x.retire canon else x
  { y with arr := { y.arr with
      issues := y.arr.issues ++ [{ i with ticket := y.arr.ticket }], ticket := y.arr.ticket + 1 } }

/-- Issues made in order (R60). Once a retiring issue has stopped array dispatch no further issue is made (R87, R95). -/
def ArrayFx.pushAll (canon : Bool) : List Issue → ArrayFx → ArrayFx
  | [], x => x
  | i :: is, x => ArrayFx.pushAll canon is (if x.arr.stopped then x else x.push canon i)

/-- An MMA dispatched (R60, R355). -/
def ArrayFx.mma (canon : Bool) (w0 w1 : Word) (x : ArrayFx) : ArrayFx :=
  ArrayFx.pushAll canon ((Mma.ofWords w0 w1).issues x.arr.ctrl x.sram) x

/-- Operand word of an ACC_LD (R356). -/
def accLdLayout (ctrl : BitVec 32) (w : Word) : Layout :=
  let x := w.toNat
  if accMode ctrl = 0 then ⟨bits x 47 32, bits x 31 24, 64, 64, Fmt.ofCode (bits x 63 60), bit x 59⟩
  else ⟨bits x 47 32, bits x 31 24, 64, 64, .fp32c, false⟩

/-- An element converted for a load in SUM: FP32C by RN with SAT, then two_sum (R49, R81). -/
def loadElem (v : Val) : Pair × Flags :=
  let r := toFp32c .rn true 0 v
  if (f32 r.1.s).isFinite then
    (if r.1.s = 0x80000000 && r.1.c = 0 then Pair.zero else r.1, r.2)
  else r

/-- An accumulator load dispatched: it takes a ticket as an issue (R81, R82). In MAXI and MINI the words go in raw; a signalling NaN among
them sets NV (R38). -/
def ArrayFx.accLd (canon : Bool) (w : Word) (x : ArrayFx) : ArrayFx :=
  let l := accLdLayout x.arr.ctrl w
  if accMode x.arr.ctrl = 0 then
    let rs : List (Pair × Flags) := (l.readRows x.sram).flatMap fun row => row.map loadElem
    let y : ArrayFx := { x with flags := rs.foldl (fun g r => g.or r.2) x.flags }
    y.push canon { ticket := 0, ctrl := x.arr.ctrl, load := some (rs.map (·.1)) }
  else
    let ps := (List.range 64).flatMap fun r => readPairs x.sram (l.rowAddr r) 64
    let y : ArrayFx := { x with flags := x.flags.or (extremeFlags ps) }
    y.push canon { ticket := 0, ctrl := x.arr.ctrl, load := some ps }

/-- The drain-queue registers once a drain behind `ahead` others holds its words there (R77). -/
def drainRegsPut (regs : List Word) (ahead : Nat) (ws : List Word) : List Word :=
  if ahead = 0 then ws ++ regs.drop 3 else regs.take 3 ++ ws

/-- The front drain leaves the queue; the one behind it, if there is one, moves up (R77). -/
def drainRegsDrop (regs : List Word) (behind : Bool) : List Word := if behind then regs.drop 3 ++ regs.drop 3 else regs

/-- A drain dispatched: its words go into the drain-queue registers; it watches the last issue made, and when that has retired the live
pairs are copied at once (R73-R75, R77). -/
def ArrayFx.drain (w0 w1 w2 : Word) (iseq : BitVec 32) (x : ArrayFx) : ArrayFx :=
  let x : ArrayFx := { x with arr := { x.arr with drainRegs := drainRegsPut x.arr.drainRegs x.arr.drains.length [w0, w1, w2] } }
  let d : Drain := { w0 := w0, w1 := w1, w2 := w2, ctrl := x.arr.ctrl, watched := x.arr.ticket - 1, iseq := iseq }
  if x.arr.issues = [] then
    let r := x.snapshot d
    { r.1 with arr := { r.1.arr with drains := r.1.arr.drains ++ [r.2] } }
  else { x with arr := { x.arr with drains := x.arr.drains ++ [d] } }

/-! ### The drain port -/

/-- Fields of the drain words (Tables 3-7 to 3-9). -/
structure DrainWords where
  cvt : Cvt
  eFmt : Fmt
  fuse : Nat
  clear : Bool
  eMx : Bool
  eLine : Nat
  dstLine : Nat
  dstPitch : Nat
  ePitch : Nat
  stream : Nat
  rowStride : Nat
  indexBase : Nat
  deriving DecidableEq, Repr

def DrainWords.ofWords (w0 w1 w2 : Word) : DrainWords :=
  let x := w0.toNat
  { cvt := Cvt.ofByte (bits x 63 56), eFmt := Fmt.ofCode (bits x 55 52), fuse := bits x 51 50, clear := bit x 49,
    eMx := bit x 48, eLine := bits x 47 32, dstLine := bits x 31 16, dstPitch := bits x 15 8, ePitch := bits x 7 0,
    stream := bits w1.toNat 63 32, rowStride := bits w1.toNat 31 0, indexBase := w2.toNat }

def DrainWords.dst (d : DrainWords) : Layout := ⟨d.dstLine, d.dstPitch, 64, 64, d.cvt.fmt, d.cvt.mx⟩
def DrainWords.e (d : DrainWords) : Layout := ⟨d.eLine, d.ePitch, 64, 64, d.eFmt, d.eMx⟩
/-- Where the index tile of MAXI and MINI starts (R85). -/
def DrainWords.indexAddr (d : DrainWords) : Nat := lineUp d.dst.endAddr

/-- The fused operation of R78, exact, with its invalid flag. -/
def fuseOp (op : Nat) (v e : Val) : Val × Bool :=
  if op = 1 then let r := v.add e; (r, nvOf [v, e] r)
  else if op = 2 then let r := v.mul e; (r, nvOf [v, e] r)
  else (v, false)

/-- One result row of a drain: the memory writes and the flags (R78, R79). `rif` gives the four Riffle bits of an index. -/
def drainRow (d : DrainWords) (rif : Nat → Nat) (sram : Mem) (i : Nat) (ps : List Pair) (extreme : Bool) :
    List (Nat × List Byte) × Flags :=
  if d.cvt.fmt = .fp32c && d.fuse = 0 && !extreme then
    ([(d.dst.rowAddr i, pairBytes ps)], {})
  else
    let es := if d.fuse = 0 then [] else d.e.readRow sram i
    let rs := ps.mapIdx fun j p => fuseOp d.fuse (if extreme then f32 p.s else p.val) (es.getD j Val.zero)
    let row := convertRow d.cvt (fun j => rif ((d.indexBase + i * d.rowStride + j) % 2 ^ 64)) (rs.map (·.1))
    (d.dst.rowWrites i row.1 row.2.1, { row.2.2 with nv := row.2.2.nv || rs.any (·.2) })

/-- Every memory write of a drain, in row order, and the flags it raises (R78, R79, R85). -/
def drainWrites (d : DrainWords) (mode : Nat) (rif : Nat → Nat) (sram : Mem) (ps : List Pair) :
    List (Nat × List Byte) × Flags :=
  let rows := (List.range 64).map fun i => drainRow d rif sram i ((ps.drop (64 * i)).take 64) (decide (mode ≠ 0))
  let idx := if mode = 0 then [] else
    [(d.indexAddr, ps.flatMap fun p => leBytes 4 p.c.toNat)]
  (rows.flatMap (·.1) ++ idx, rows.foldl (fun g r => g.or r.2) {})

end Sys2Proof.Machine
end

