-- ==== Sys2Proof/Machine/ChainUnit.lean ====
section
/-! DEFINITION. Chain instructions of one member: the words, the layout of partials and results, the fold (R96-R101). -/

namespace Sys2Proof.Machine

/-- Chain instruction words (Tables 4-2 to 4-4). -/
structure ChainWords where
  id : Nat
  op : Nat
  mode : Nat
  role : Nat
  inDir : Nat
  outDir : Nat
  topk : Nat
  srcLine : Nat
  dstLine : Nat
  count : Nat
  span : Nat
  peer : Nat
  segFirst : Nat
  deriving DecidableEq, Repr

def ChainWords.ofWords (w0 w1 w2 : Word) : ChainWords :=
  let x := w0.toNat
  let y := w1.toNat
  let z := w2.toNat
  { id := bits x 63 32, op := bits x 31 28, mode := bits x 27 27, role := bits x 26 25, inDir := bits x 24 22,
    outDir := bits x 21 19, topk := bits x 15 0, srcLine := bits y 63 48, dstLine := bits y 47 32,
    count := bits y 31 16, span := bits y 15 0, peer := bits z 63 48, segFirst := bits z 31 0 }

def ChainWords.isHead (c : ChainWords) : Bool := decide (c.role = 0) || decide (c.role = 3)
def ChainWords.isTail (c : ChainWords) : Bool := decide (c.role = 2) || decide (c.role = 3)
/-- First member of a leg: a head, or the member that takes the chain inbox (R98, Table 4-7). -/
def ChainWords.legHead (c : ChainWords) : Bool := c.isHead || decide (c.inDir = 5)
/-- Last member of a leg. -/
def ChainWords.legTail (c : ChainWords) : Bool := c.isTail || decide (c.outDir = 5)

/-- K of R106: the list length for TOPK, 1 otherwise. -/
def ChainWords.k (c : ChainWords) : Nat := if c.op = 3 then c.topk else 1
/-- Entries of a result: COUNT x K. -/
def ChainWords.entries (c : ChainWords) : Nat := c.count * c.k

/-- Bytes from one row's list to the next in tile SRAM. A TOPK list starts on a line boundary, the layout that the DRAW
unit writes and the chain keeps (R173, R177); other entries follow at 8 bytes (DEDUCED, log 7). -/
def ChainWords.rowBytes (c : ChainWords) : Nat := if c.op = 3 then lineUp (8 * c.topk) else 8

/-- Bytes of the COUNT x K entries of a partial or result, as R99 counts them. -/
def ChainWords.packed (c : ChainWords) : Nat := 8 * c.entries

/-- Bytes of one partial or result in tile SRAM. -/
def ChainWords.bytes (c : ChainWords) : Nat := c.count * c.rowBytes

/-- The entries of a partial or result that starts at a byte address. -/
def ChainWords.readAt (c : ChainWords) (m : Mem) (a : Nat) : List Pair :=
  (List.range c.count).flatMap fun r => readPairs m (a + r * c.rowBytes) c.k

/-- The writes of a result at DST_LINE (R100). -/
def ChainWords.dstWrites (c : ChainWords) (es : List Pair) : List (Nat × List Byte) :=
  (List.range c.count).map fun r => (c.dstLine * 64 + r * c.rowBytes, pairBytes ((es.drop (r * c.k)).take c.k))

/-- The member's partials in ascending chain position (R100). -/
def ChainWords.partials (c : ChainWords) (m : Mem) : List (List Pair) :=
  (List.range c.span).map fun p => c.readAt m (c.srcLine * 64 + p * c.bytes)

/-- One combine of two results, entry by entry or list by list (R89, R96, R97). -/
def ChainWords.combine (c : ChainWords) (r p : List Pair) : List Pair × Flags :=
  if c.op = 0 then
    let es := (r.zip p).map fun x => chainCombine x.1 x.2
    (es.map (·.1), es.foldl (fun (g : Flags) e => g.or e.2) {})
  else if c.op = 3 then
    ((List.range c.count).flatMap fun i =>
      topkMerge c.topk ((r.drop (i * c.topk)).take c.topk) ((p.drop (i * c.topk)).take c.topk), extremeFlags (r ++ p))
  else ((r.zip p).map fun x => extremeStep (decide (c.op = 2)) x.1 x.2, extremeFlags (r ++ p))

/-- A head's first partial as its running result: pairs normalised, NaNs canonical (R38, R40). -/
def ChainWords.begin_ (c : ChainWords) (p : List Pair) : List Pair × Flags :=
  if c.op = 0 then (p.map Pair.norm, p.foldl (fun (g : Flags) x => g.or x.normFlags) {})
  else (p.map canonExtreme, extremeFlags p)

/-- The fold of R100: the incoming result, or as HEAD the first partial, combined with each remaining partial. -/
def ChainWords.fold (c : ChainWords) (incoming : Option (List Pair)) (m : Mem) : List Pair × Flags :=
  match incoming, c.partials m with
  | some r, ps => ps.foldl (fun acc p => let q := c.combine acc.1 p; (q.1, acc.2.or q.2)) (r, {})
  | none, [] => ([], {})
  | none, p :: ps => ps.foldl (fun acc p => let q := c.combine acc.1 p; (q.1, acc.2.or q.2)) (c.begin_ p)

/-- The lead word of a running result (R101). -/
structure Lead where
  segNext : Nat
  id16 : Nat
  op : Nat
  deriving DecidableEq, Repr

/-- The lead word a member sends. -/
def ChainWords.lead (c : ChainWords) : Lead :=
  ⟨(c.segFirst + c.span) % 2 ^ 32, c.id % 2 ^ 16, c.op⟩

/-- The check of R101 on the carried position, identifier and operation. -/
def ChainWords.accepts (c : ChainWords) (l : Lead) : Bool :=
  decide (l.segNext = c.segFirst) && decide (l.id16 = c.id % 2 ^ 16) && decide (l.op = c.op)

/-- The eight bytes of a lead word (R101). -/
def Lead.bytes (l : Lead) : List Byte := leBytes 4 l.segNext ++ leBytes 2 l.id16 ++ leBytes 1 (l.op % 16) ++ [0]

/-- The lead word in the first eight bytes of a message (R101). -/
def Lead.ofBytes (bs : List Byte) : Lead :=
  ⟨leNat (bs.take 4), leNat ((bs.drop 4).take 2), leNat ((bs.drop 6).take 1) % 16⟩

/-- A VC1 flit of a running result: 256 bytes of the message (R102). -/
structure ChainFlit where
  data : List Byte
  deriving DecidableEq, Repr

/-- A message cut into flits of 256 bytes, the last padded with zero bytes (R102). -/
def cutFlits : Nat → List Byte → List ChainFlit
  | 0, _ => []
  | n + 1, bs => if bs.isEmpty then [] else ⟨fitBytes 256 bs⟩ :: cutFlits n (bs.drop 256)

/-- The message of a running result: the lead word, then entry e at byte 8 + 8e (R101). -/
def ChainWords.message (c : ChainWords) (es : List Pair) : List Byte := c.lead.bytes ++ pairBytes es

/-- The flits of a running result: the first holds the lead word and 31 entries, each later one 32 entries (R102). -/
def ChainWords.flits (c : ChainWords) (es : List Pair) : List ChainFlit := cutFlits (es.length + 1) (c.message es)

/-- Entries of a byte string (R6). -/
def bytePairs (n : Nat) (bs : List Byte) : List Pair := (List.range n).map fun k => Pair.ofNat (leNat ((bs.drop (8 * k)).take 8))

/-- One chain-queue entry (R98): the instruction, the tokens of R103 and what has arrived. -/
structure ChainEntry where
  w0 : Word := 0
  w1 : Word := 0
  w2 : Word := 0
  /-- Meridian step of the instance, taken at dispatch. -/
  step : Nat := 0
  /-- ISEQ the instruction took (R276). -/
  iseq : BitVec 32 := 0
  /-- The ready token of every later member of the leg has arrived (R103). -/
  ready : Bool := false
  /-- The leg has started at this member, or a flit of it has arrived. -/
  started : Bool := false
  /-- Bytes of the incoming message that have arrived, its lead word first. -/
  got : List Byte := []
  /-- Stream position after the instruction (R109). -/
  pos : Nat := 0
  /-- The energy chain of a sequencer, not an instruction of the stream (R158). -/
  energy : Bool := false
  deriving DecidableEq, Repr

def ChainEntry.words (e : ChainEntry) : ChainWords := ChainWords.ofWords e.w0 e.w1 e.w2

end Sys2Proof.Machine
end

