-- ==== Sys2Proof/Machine/Transc.lean ====
section
/-! DEFINITION. Correctly rounded quotients, roots, exponentials and logarithms (Table 12-23, R357), and the normal
tail function of R125. A result that is no dyadic number is held to more than 250 significant bits with a sticky last
bit, so that one later rounding is the rounding of the exact result. -/

namespace Sys2Proof.Machine

/-- Integer square root by bisection on bits, from bit n down. -/
def isqrtAux : Nat → Nat → Nat → Nat
  | 0, _, r => r
  | n + 1, x, r =>
    let t := r + 2 ^ n
    isqrtAux n x (if t * t ≤ x then t else r)

/-- The largest r with r * r at most x. -/
def isqrt (x : Nat) : Nat := isqrtAux (x.log2 / 2 + 1) x 0

/-- q * 2^e with a sticky bit below it. -/
def sticky (neg : Bool) (q : Nat) (e : Int) (inexact : Bool) : Val :=
  .fin neg (2 * q + if inexact then 1 else 0) (e - 1)

/-- Exact quotient (Table 12-23): x / 0 is an infinity, 0 / 0 and inf / inf are NaN. -/
def Val.div (a b : Val) : Val :=
  match a, b with
  | .nan s, .nan t => .nan (s || t)
  | .nan s, _ => .nan s
  | _, .nan t => .nan t
  | .inf _, .inf _ => .nan false
  | .inf n, .fin m _ _ => .inf (n != m)
  | .fin n _ _, .inf m => .fin (n != m) 0 0
  | .fin n x e, .fin m y f =>
    if y = 0 then (if x = 0 then .nan false else .inf (n != m))
    else if x = 0 then .fin (n != m) 0 0
    else
      let k := 256 + y.log2
      let num := x <<< k
      sticky (n != m) (num / y) (e - f - k) (num % y != 0)

/-- Exact square root (Table 12-23): of a negative value a NaN, of -0 it is -0. -/
def Val.sqrt (a : Val) : Val :=
  match a with
  | .nan s => .nan s
  | .inf false => .inf false
  | .inf true => .nan false
  | .fin n 0 e => .fin n 0 e
  | .fin true _ _ => .nan false
  | .fin false m e =>
    let sh := 512 + (if (e % 2 = 0) then 0 else 1)
    let x := m <<< sh
    let r := isqrt x
    sticky false r ((e - sh) / 2) (r * r != x)

/-- Terms k, k+1, ... of the series of atanh, term k being z^(2k+1)/(2k+1), on p fraction bits. -/
def atanhSum : Nat → Nat → Nat → Nat → Nat → Nat → Nat
  | 0, _, _, _, _, acc => acc
  | n + 1, k, z2, zk, p, acc => atanhSum n (k + 1) z2 ((zk * z2) >>> p) p (acc + zk / (2 * k + 1))

/-- 2 atanh(num/den) * 2^p, at most p units too small, for num/den at most 1/3. -/
def twoAtanh (p num den : Nat) : Nat :=
  let z := (num <<< p) / den
  2 * atanhSum (p / 3 + 2) 0 ((z * z) >>> p) z p 0

/-- ln 2 * 2^p, at most p units too small. -/
def ln2Fix (p : Nat) : Nat := twoAtanh p 1 3

/-- Taylor terms of e^r for r in [0, 1) on p bits. -/
def expSum : Nat → Nat → Nat → Nat → Nat → Nat → Nat
  | 0, _, _, _, _, acc => acc
  | n + 1, k, r, term, p, acc =>
    let t := ((term * r) >>> p) / k
    expSum n (k + 1) r t p (acc + t)

/-- Retry at growing precision until the lower and upper bound agree in their 250 leading bits (then the value is known
with a sticky bit); f p gives (lower, width) of the magnitude in units of 2^-p. -/
def ziv : Nat → Nat → (Nat → Nat × Nat) → Bool → Val
  | 0, p, f, neg => sticky neg (f p).1 (-(p : Int)) true
  | n + 1, p, f, neg =>
    let b := f p
    let hi := b.1 + b.2
    let sh := hi.log2 - 250
    if 260 ≤ hi.log2 ∧ b.1 >>> sh = hi >>> sh then sticky neg (b.1 >>> sh) (sh - (p : Int)) true
    else ziv n (2 * p) f neg

/-- |ln(m * 2^e)| on p bits: (lower bound, width), for a magnitude that is not 1. -/
def lnBounds (m : Nat) (e : Int) (p : Nat) : Nat × Nat :=
  let l := m.log2
  let k := e + l
  let y := twoAtanh p (m - 2 ^ l) (m + 2 ^ l)
  let err := (p + 2) * (k.natAbs + 4)
  let v : Int := k * (ln2Fix p : Nat) + (y : Nat)
  (v.natAbs - err, 2 * err)

/-- Natural logarithm (Table 12-23): of a zero -inf, of a negative value a NaN, of 1 the zero +0. -/
def Val.ln (a : Val) : Val :=
  match a with
  | .nan s => .nan s
  | .inf false => .inf false
  | .inf true => .nan false
  | .fin _ 0 _ => .inf true
  | .fin true _ _ => .nan false
  | .fin false m e =>
    if dyCompare m e 1 0 = .eq then .zero
    else ziv 6 (700 + m.log2) (lnBounds m e) (decide (dyCompare m e 1 0 = .lt))

/-- 2^p * e^x split as mantissa times 2^k: (lower bound, width) of the mantissa, with k. x = (neg, m, e) finite. -/
def expBounds (neg : Bool) (m : Nat) (e : Int) (p : Nat) : (Nat × Nat) × Int :=
  let x : Nat := if 0 ≤ e + p then m <<< (e + p).toNat else m >>> (-(e + p)).toNat
  let l := ln2Fix p
  let k : Nat := x / l
  -- x = k ln2 + r; for a negative argument use -(k+1) and ln2 - r
  let r := x - k * l
  let kk : Int := if neg then -((k : Int) + 1) else k
  let rr := if neg then l - r else r
  let s := expSum (p / 4 + 8) 1 (min rr (2 ^ p)) (2 ^ p) p (2 ^ p)
  let err := 8 * (p + 4) * (k + 4)
  ((s - err, 2 * err), kk)

/-- e^a (Table 12-23); e^0 is 1. Beyond |a| = 2^13 the value lies outside every format and a power of two stands for
it. -/
def Val.exp (a : Val) : Val :=
  match a with
  | .nan s => .nan s
  | .inf false => .inf false
  | .inf true => .zero
  | .fin _ 0 _ => .one
  | .fin n m e =>
    if flog2 m e ≥ 13 then .fin false 1 (if n then -20000 else 20000)
    else
      let p0 := 700
      (ziv 6 p0 (fun p => (expBounds n m e p).1) false).scale (expBounds n m e 700).2

/-- arctan(1/n) * 2^p by its alternating series, as (sum of even terms, sum of odd terms). -/
def atanInvSum : Nat → Nat → Nat → Nat → Int → Int
  | 0, _, _, _, acc => acc
  | f + 1, k, n2, t, acc =>
    atanInvSum f (k + 1) n2 (t / n2) (if k % 2 = 0 then acc + (t / (2 * k + 1) : Nat) else acc - (t / (2 * k + 1) : Nat))

/-- pi * 2^p by Machin's formula, within p units. -/
def piFix (p : Nat) : Nat :=
  (4 * (4 * atanInvSum (p / 2) 0 25 (2 ^ p / 5) 0 - atanInvSum (p / 2) 0 57121 (2 ^ p / 239) 0)).toNat

/-- Sum over n of x^(2n+1) / (1*3*...*(2n+1)) on p bits. -/
def tailSum : Nat → Nat → Nat → Nat → Nat → Nat → Nat
  | 0, _, _, _, _, acc => acc
  | n + 1, k, x2, t, p, acc => tailSum n (k + 1) x2 (((t * x2) >>> p) / (2 * k + 3)) p (acc + t)

/-- 2^p * 2(1 - Phi(z)) for z = x * 2^-p, z at most 10: 1 - sqrt(2/pi) e^(-z^2/2) * sum z^(2n+1)/(2n+1)!!. -/
def twoTail (p x : Nat) : Int :=
  let x2 := (x * x) >>> p
  let s := tailSum (p + 200) 0 x2 x p 0
  let b := expBounds true x2 (-(p : Int) - 1) p
  let ex := if 0 ≤ b.2 then b.1.1 <<< b.2.toNat else b.1.1 >>> (-b.2).toNat
  let c := isqrt ((2 ^ (p + 1) <<< (2 * p)) / piFix p)
  (2 ^ p : Nat) - ((((s * ex) >>> p) * c) >>> p : Nat)

/-- Bisection for floor(Q(v) * 2^g), with v = num * 2^-p0 and g at most p: bits from n down. -/
def qBisect : Nat → Nat → Nat → Int → Nat → Nat
  | 0, _, _, _, z => z
  | n + 1, g, p, v, z =>
    let t := z + 2 ^ n
    qBisect n g p v (if v ≤ twoTail p (t <<< (p - g)) then t else z)

/-- Q(v) = Phi^-1(1 - v/2) on 120 fraction bits, rounded down, for v = num * 2^-71 (R125). -/
def qFix (num : Nat) : Nat := qBisect 124 120 320 ((num <<< (320 - 71) : Nat) : Int) 0

end Sys2Proof.Machine
end

