-- ==== Sys2Proof/Machine/Riffle.lean ====
section
/-! DEFINITION. The Riffle generator (R114, R115, R117), its normal tables (R124, R125) and the native results of the
distributions of Table 5-7 (R123). -/

namespace Sys2Proof.Machine

/-- A 64-bit rotation to the left (R14). -/
def rotl64 (x n : Nat) : Nat := ((x <<< n) ||| (x >>> (64 - n))) % 2 ^ 64

/-- One Galois clock: x times X modulo the polynomial with coefficients p and x^128 implied (R114). -/
def galois (p x : Nat) : Nat :=
  let y := (x <<< 1) % 2 ^ 128
  if x.testBit 127 then y ^^^ p else y

/-- n Galois clocks. -/
def galoisN : Nat → Nat → Nat → Nat
  | 0, _, x => x
  | n + 1, p, x => galoisN n p (galois p x)

/-- x * y modulo the polynomial p of degree 128 (bits of y from n down). -/
def polyMul : Nat → Nat → Nat → Nat → Nat → Nat
  | 0, _, _, _, acc => acc
  | n + 1, p, x, y, acc =>
    let a := galois p acc
    polyMul n p x y (if y.testBit n then a ^^^ x else a)

/-- x^e modulo p by squaring, over the bits of e from n down. -/
def polyPow : Nat → Nat → Nat → Nat → Nat → Nat
  | 0, _, _, _, acc => acc
  | n + 1, p, x, e, acc =>
    let a := polyMul 128 p acc acc 0
    polyPow n p x e (if e.testBit n then polyMul 128 p a x 0 else a)

/-- The primes dividing 2^128 - 1 (R115). -/
def orderPrimes : List Nat := [3, 5, 17, 257, 641, 65537, 274177, 6700417, 67280421310721]

/-- R115: whether the degree-128 polynomial with coefficients p is primitive. -/
def primitive (p : Nat) : Bool :=
  polyPow 128 p 2 (2 ^ 128 - 1) 1 == 1 &&
    orderPrimes.all fun q => polyPow 128 p 2 ((2 ^ 128 - 1) / q) 1 != 1

/-- The next pentanomial in ascending encoding: ascending a, then b, then c (R115). -/
def nextPenta (t : Nat × Nat × Nat) : Nat × Nat × Nat :=
  let (a, b, c) := t
  if c + 1 < b then (a, b, c + 1) else if b + 1 < a then (a, b + 1, 1) else (a + 1, 2, 1)

/-- Encoding of a pentanomial (R115). -/
def pentaEnc (t : Nat × Nat × Nat) : Nat := 2 ^ t.1 + 2 ^ t.2.1 + 2 ^ t.2.2 + 1

/-- The j-th primitive pentanomial from t on, entry 0's 0x87 left out (R115). -/
def polySearch : Nat → Nat → Nat × Nat × Nat → Nat
  | 0, _, t => pentaEnc t
  | n + 1, j, t =>
    if pentaEnc t != 0x87 && primitive (pentaEnc t) then
      (if j ≤ 1 then pentaEnc t else polySearch n (j - 1) (nextPenta t))
    else polySearch n j (nextPenta t)

/-- riffle_poly (R115). -/
def rifflePoly (k : Nat) : Nat :=
  if k % 1024 = 0 then 0x87 else polySearch 333375 (k % 1024) (3, 2, 1)

/-- The loaded register of R114, before its check for zero. -/
def riffleLoad (seed stream w : Nat) : Nat :=
  (seed % 2 ^ 128) ^^^ ((stream % 2 ^ 32) * 2 ^ 64 + w % 2 ^ 64) ^^^ 0x5851F42D4C957F2DA3B195C2E06D4F87

/-- Rounds of R114 from round r on. -/
def riffleRounds : Nat → Nat → Nat → Nat → Nat
  | 0, _, _, x => x
  | n + 1, r, p, x =>
    let y := galoisN 8 p x
    let lo := y % 2 ^ 64
    let hi := y / 2 ^ 64
    let rc := ((r + 1) * 0x9E3779B97F4A7C15) % 2 ^ 64
    let f := (lo &&& rotl64 hi 11) ^^^ (rotl64 lo 25 ||| rotl64 hi 40) ^^^ rc
    riffleRounds n (r + 1) p (y ^^^ f)

/-- riffle_word of R114. -/
def riffleWord (seed stream w : Nat) : Nat :=
  let x := riffleLoad seed stream w
  let y := riffleRounds 48 0 (rifflePoly stream) (if x = 0 then 1 else x)
  (y % 2 ^ 64) ^^^ (y / 2 ^ 64)

/-- riffle_bits of R117: the item of width 2^lb at logical index i. -/
def riffleBits (seed stream i lb : Nat) : Nat :=
  let j := i % 2 ^ 64
  let w := j >>> (6 - lb)
  let o := (j % 2 ^ (6 - lb)) <<< lb
  (riffleWord seed stream w >>> o) % 2 ^ (2 ^ lb)

/-- Word w holds one of the n items of width 2^lb from an index on (R117). -/
def wordNeeded (base n lb w : Nat) : Bool :=
  decide (0 < n) && (decide (w = base % 2 ^ 64 >>> (6 - lb)) || decide (((w <<< (6 - lb)) + 2 ^ 64 - base % 2 ^ 64) % 2 ^ 64 < n))

/-- log2 of an item width allowed by R117. -/
def lbOf (b : Nat) : Option Nat :=
  if b = 1 then some 0 else if b = 2 then some 1 else if b = 4 then some 2 else if b = 8 then some 3
  else if b = 16 then some 4 else if b = 32 then some 5 else if b = 64 then some 6 else none

/-- The known-answer inputs of Table 5-11: (seed, stream, w). The answers are what R114 and R115 yield (R133). -/
def riffleKat : List (Nat × Nat × Nat) :=
  [(0, 0, 0), (0, 0, 1), (0, 0x400, 0), (0x0123456789ABCDEFFEDCBA9876543210, 1, 0xFFFFFFFFFFFFFFFF),
   (0x2A, 5, 0x1000000E)]

/-! ### The normal tables -/

/-- 2^71 * v for the lower end of subsegment m of octave e: v = 2^-(e+1) * (1 + m/64) (R125). -/
def normV (e m : Nat) : Nat := (64 + m) <<< (64 - e)

/-- norm_a of R125. -/
def normA (e m : Nat) : Val :=
  rn32 (sticky false (qFix (normV e m)) (-120) true)

/-- norm_b of R125: Q falls, so the difference is negative. -/
def normB (e m : Nat) : Val :=
  rn32 (sticky true (qFix (normV e m) - qFix (normV e (m + 1))) (-120) true)

/-- riffle_normal of R124, as an exact FP32 value. -/
def riffleNormal (t limit : Nat) : Val :=
  let h0 := t % 2 ^ 63
  let h := limit + ((h0 * (2 ^ 63 - limit)) >>> 63)
  let tp := (2 * h + 1) % 2 ^ 64
  let e := 63 - tp.log2
  let y := (tp <<< e) % 2 ^ 64
  let m := bits y 62 57
  let fr := Val.fin false (bits y 56 41) (-16)
  let mag := rn32 (((normB e m).mul fr).add (normA e m))
  if t.testBit 63 then mag.neg else mag

/-! ### Native results (Table 5-7) -/

/-- v = (t + 1/2) * 2^-32 (R123). -/
def halfV (t : Nat) : Val := .fin false (2 * t + 1) (-33)

/-- rn32(-ln v) (R123). -/
def expDraw (t : Nat) : Val := rn32 (halfV t).ln.neg

/-- The GUMBEL value rn32(-ln y), y = rn32(-ln v) (R123). -/
def gumbel32 (t : Nat) : Val := rn32 (expDraw t).ln.neg

end Sys2Proof.Machine
end

