-- ==== Sys2Proof/Machine/AnnealUnit.lean ====
section
/-! DEFINITION. What the anneal sequencer of one tile computes (R134-R167): the control block, CHECK, decisions, colour
steps, the energy partials and the trace record. -/

namespace Sys2Proof.Machine

/-- CRC-64 with the ECMA-182 polynomial, initial value 0, no reflection (R167, R273). -/
def crc64Byte (crc b : Nat) : Nat :=
  (List.range 8).foldl (fun c _ =>
    if c.testBit 63 then ((c <<< 1) % 2 ^ 64) ^^^ 0x42F0E1EBA9EA3693 else (c <<< 1) % 2 ^ 64) (crc ^^^ (b <<< 56))
def crc64 (crc : Nat) (bs : List Byte) : Nat := bs.foldl (fun c b => crc64Byte c b.toNat) crc

/-- Sequencer control words 0-5 (Tables 6-7 to 6-12). -/
structure SeqCtl where
  suKind : Nat
  varKind : Nat
  q : Nat
  ncol : Nat
  relaxed : Bool
  rotate : Bool
  jFmt : Nat
  jScale : Nat
  replica : Nat
  traceEvery : Nat
  stream : Nat
  sweepFirst : Nat
  schedLine : Nat
  schedLen : Nat
  traceLine : Nat
  traceCap : Nat
  graphLine : Nat
  stateLine : Nat
  haloLine : Nat
  exportLine : Nat
  stageLine : Nat
  stageLines : Nat
  biasLine : Nat
  chainLine : Nat
  rotCycles : Nat
  ringLines : Nat
  peerLine : Nat
  peers : Nat
  deriving DecidableEq, Repr

def SeqCtl.ofWords (w : List Word) : SeqCtl :=
  let g := fun i => (w.getD i 0).toNat
  { suKind := bits (g 0) 63 60, varKind := bits (g 0) 59 58, q := bits (g 0) 57 50 + 1, ncol := bits (g 0) 49 46 + 1,
    relaxed := bit (g 0) 45, rotate := bit (g 0) 44, jFmt := bits (g 0) 43 40, jScale := bits (g 0) 39 32,
    replica := bits (g 0) 31 26, traceEvery := bits (g 0) 15 0,
    stream := bits (g 1) 63 32, sweepFirst := bits (g 1) 31 0,
    schedLine := bits (g 2) 63 48, schedLen := bits (g 2) 47 36 + 1, traceLine := bits (g 2) 31 16,
    traceCap := bits (g 2) 15 0,
    graphLine := bits (g 3) 63 48, stateLine := bits (g 3) 47 32, haloLine := bits (g 3) 31 16,
    exportLine := bits (g 3) 15 0,
    stageLine := bits (g 4) 63 48, stageLines := bits (g 4) 47 32, biasLine := bits (g 4) 31 16,
    chainLine := bits (g 4) 15 0,
    rotCycles := bits (g 5) 63 48, ringLines := bits (g 5) 47 32, peerLine := bits (g 5) 31 16,
    peers := bits (g 5) 7 0 }

def SeqCtl.dense (c : SeqCtl) : Bool := decide (c.suKind = 2)
def SeqCtl.streamed (c : SeqCtl) : Bool := decide (c.suKind = 1)
def SeqCtl.potts (c : SeqCtl) : Bool := decide (c.varKind = 2)

/-- A directory entry of one colour (R152). -/
structure DirEntry where
  recFirst : Nat
  recCount : Nat
  slotFirst : Nat
  slotCount : Nat
  haloFirst : Nat
  haloCount : Nat
  expFirst : Nat
  expCount : Nat
  deriving DecidableEq, Repr

/-- The directories that follow the control words (R152). -/
def readDirs (m : Mem) (ctrlLine : Nat) : List DirEntry :=
  let b := ctrlLine * 64
  (List.range 16).map fun c =>
    ⟨m.nat (b + 64 + 16 * c) 4, m.nat (b + 68 + 16 * c) 4, m.nat (b + 72 + 16 * c) 4, m.nat (b + 76 + 16 * c) 4,
     m.nat (b + 320 + 8 * c) 4, m.nat (b + 324 + 8 * c) 4, m.nat (b + 448 + 8 * c) 4, m.nat (b + 452 + 8 * c) 4⟩

/-- A schedule entry: BETA and REPEAT (R153). -/
structure SchedEntry where
  beta : BitVec 32
  count : Nat
  deriving DecidableEq, Repr

/-- An entry of the peer list (Boundary exchange). -/
structure PeerRef where
  panel : Nat
  tile : Nat
  deriving DecidableEq, Repr

/-- An export entry (R161). -/
structure ExportRef where
  src : Nat
  dst : Nat
  peer : Nat
  kind : Nat
  reserved : Nat
  deriving DecidableEq, Repr

/-- What CHECK copies into the sequencer (R150, R154). -/
structure SeqCopy where
  ctl : SeqCtl
  dirs : List DirEntry
  sched : List SchedEntry
  peers : List PeerRef
  exports : List ExportRef
  deriving DecidableEq, Repr

/-- Reading order of R154 up to the export list. -/
def SeqCopy.read (m : Mem) (ctrlLine : Nat) (words : List Word) : SeqCopy :=
  let c := SeqCtl.ofWords words
  let dirs := readDirs m ctrlLine
  let nexp := dirs.foldl (fun n d => max n (d.expFirst + d.expCount)) 0
  { ctl := c, dirs := dirs
    sched := if c.rotate then [] else (List.range c.schedLen).map fun i =>
      ⟨BitVec.ofNat 32 (m.nat (c.schedLine * 64 + 8 * i) 4), m.nat (c.schedLine * 64 + 8 * i + 4) 4⟩
    peers := (List.range c.peers).map fun i =>
      ⟨m.nat (c.peerLine * 64 + 4 * i + 2) 2, m.nat (c.peerLine * 64 + 4 * i) 2⟩
    exports := (List.range (min nexp 1048576)).map fun i =>
      let a := c.exportLine * 64 + 16 * i
      ⟨m.nat a 4, m.nat (a + 4) 4, m.nat (a + 8) 1, m.nat (a + 9) 1, m.nat (a + 10) 6⟩ }

/-- A variable record (Table 6-3). -/
structure VarRec where
  varId : Nat
  slotWord : Nat
  bias : Nat
  deg : Nat
  flags : Nat
  biasRow : Nat
  js : List Nat
  refs : List Nat
  deriving DecidableEq, Repr

def VarRec.slot (r : VarRec) : Nat := r.slotWord % 2 ^ 23
def VarRec.colour (r : VarRec) : Nat := r.flags % 16
def VarRec.cont (r : VarRec) : Bool := bit r.flags 7

/-- Records of the run. -/
def SeqCopy.recCount (s : SeqCopy) : Nat := s.dirs.foldl (fun n d => max n (d.recFirst + d.recCount)) 0

/-- Record-directory order: the records of colour 0, then those of colour 1, and so on (R144, R152). -/
def SeqCopy.order (s : SeqCopy) : List Nat := s.dirs.flatMap fun d => (List.range d.recCount).map (d.recFirst + ·)

/-- The 96 bytes of a record in the ring, from a place of the stream of records on (R144). -/
def SeqCopy.ringRecord (s : SeqCopy) (m : Mem) (from_ : Nat) : List Byte :=
  (List.range 96).map fun k => m.byte (s.ctl.graphLine * 64 + (from_ + k) % max 1 (s.ctl.ringLines * 64))

/-- Bytes of record i: resident, or among the records of the pass that were taken from the ring, in directory order (R144). -/
def SeqCopy.recBytes (s : SeqCopy) (m : Mem) (got : List (List Byte)) (i : Nat) : List Byte :=
  if s.ctl.streamed then got.getD (s.order.idxOf i) [] else m.read (s.ctl.graphLine * 64 + 96 * i) 96

/-- The records of a pass up to the end of a colour have been taken (R144). -/
def SeqCopy.ready (s : SeqCopy) (got : List (List Byte)) (colour : Nat) : Bool :=
  !s.ctl.streamed || decide (((s.dirs.take (colour + 1)).map DirEntry.recCount).sum ≤ got.length)

/-- What is left of the records taken once a pass is over (R144). -/
def SeqCopy.nextPass (s : SeqCopy) (got : List (List Byte)) : List (List Byte) := if s.ctl.streamed then got.drop s.order.length else got

def VarRec.ofBytes (b : List Byte) : VarRec :=
  let f := fun o n => leNat ((b.drop o).take n)
  { varId := f 0 4, slotWord := f 4 4, bias := f 8 2, deg := f 10 1, flags := f 11 1, biasRow := f 12 4
    js := (List.range 16).map fun j => f (16 + j) 1, refs := (List.range 16).map fun j => f (32 + 4 * j) 4 }

/-- Records of one directory range. -/
def SeqCopy.records (s : SeqCopy) (m : Mem) (got : List (List Byte)) (first count : Nat) : List VarRec :=
  (List.range count).map fun i => VarRec.ofBytes (s.recBytes m got (first + i))

/-- Every record that the directory names, in record order (R158). -/
def SeqCopy.allRecords (s : SeqCopy) (m : Mem) (got : List (List Byte)) : List VarRec :=
  ((List.range s.recCount).filter fun i => s.order.contains i).map fun i => VarRec.ofBytes (s.recBytes m got i)

/-- A first record and the continuation records that follow it (R141). -/
def groupVars : List VarRec → List (VarRec × List VarRec)
  | [] => []
  | r :: rs =>
    match groupVars rs with
    | [] => [(r, [r])]
    | (h, g) :: rest => if h.cont then (r, r :: g) :: rest else (r, [r]) :: (h, g) :: rest

/-- A neighbour entry: coupling byte and reference word. -/
def VarRec.nbrs (r : VarRec) : List (Nat × Nat) := (r.js.zip r.refs).take r.deg

/-- Coupling value J_ij: the stored value times 2^(J_SCALE - 127) (R134). -/
def SeqCtl.jVal (c : SeqCtl) (x : Nat) : Val := (decodeElem (Fmt.ofCode c.jFmt) x).scale ((c.jScale : Int) - 127)

def fp16Fmt : Fmt := Fmt.ofCode 2

/-- State of a slot of a vector: one bit for SPIN and BOOL, one byte for POTTS (R142). -/
def SeqCtl.stateOf (c : SeqCtl) (m : Mem) (line slot : Nat) : Nat :=
  if c.potts then (m.byte (line * 64 + slot)).toNat
  else ((m.byte (line * 64 + slot / 8)).toNat >>> (slot % 8)) % 2

/-- A slot of a vector written. -/
def SeqCtl.putState (c : SeqCtl) (line : Nat) (m : Mem) (slot v : Nat) : Mem :=
  if c.potts then m.write (line * 64 + slot) [BitVec.ofNat 8 v]
  else
    let a := line * 64 + slot / 8
    let old := (m.byte a).toNat
    let cleared := old - (if bit old (slot % 8) then 2 ^ (slot % 8) else 0)
    m.write a [BitVec.ofNat 8 (cleared + v % 2 * 2 ^ (slot % 8))]

/-- State a reference names (R142). -/
def SeqCtl.refState (c : SeqCtl) (m : Mem) (ref : Nat) : Nat :=
  c.stateOf m (if bit ref 31 then c.haloLine else c.stateLine) (ref % 2 ^ 23)

/-- Spin value of a binary state (Table 6-1). -/
def SeqCtl.spin (c : SeqCtl) (st : Nat) : Val :=
  if st % 2 = 1 then .one else if c.varKind = 0 then Val.one.neg else .zero

/-- Whether a binary variable's state multiplies as (s_i s_j) and a POTTS pair as [s_i = s_j] (Table 6-1). -/
def SeqCtl.pairVal (c : SeqCtl) (a b : Nat) : Val :=
  if c.potts then (if a = b then .one else .zero) else (c.spin a).mul (c.spin b)

/-- Bias b_i, or b_i(a) for POTTS (R134, Table 6-3). -/
def SeqCtl.bias (c : SeqCtl) (m : Mem) (r : VarRec) (a : Nat) : Val :=
  if c.potts then
    if r.biasRow = 0xFFFFFFFF then .zero
    else decodeElem fp16Fmt (m.nat (c.biasLine * 64 + (r.biasRow * c.q + a) * 2) 2)
  else decodeElem fp16Fmt r.bias

/-- Sum of exact values. -/
def sumVals (xs : List Val) : Val := xs.foldl Val.add .zero

/-- Field of Table 6-1; for POTTS the field of state a. -/
def SeqCtl.field (c : SeqCtl) (m : Mem) (v : VarRec × List VarRec) (a : Nat) : Val :=
  let ns := v.2.flatMap VarRec.nbrs
  (c.bias m v.1 a).add (sumVals (ns.map fun n =>
    (c.jVal n.1).mul (if c.potts then (if c.refState m n.2 = a then .one else .zero) else c.spin (c.refState m n.2))))

/-- The thresholds of R137: rn32(ln((t + 1/2) / (255.5 - t))) = rn32(ln((2t + 1) / (511 - 2t))). -/
def logit8 (t : Nat) : Val :=
  rn32 ((Val.fin false (2 * t + 1) 0).div (Val.fin false (511 - 2 * t) 0)).ln

/-- binary_decide of R136, with the flag a NaN field sets (R143). -/
def binaryDecide (h : Val) (beta lad : Val) (g : Nat) (seed stream idx : Nat) : Nat × Flags :=
  let x := rn32 (((Val.fin false g 0).mul (beta.mul lad)).mul h)
  let t := riffleBits seed stream idx 3
  (if !x.isNan && x.cmp (logit8 t) = .gt then 1 else 0, { nv := x.isNan })

/-- potts_decide of R139: the highest Gumbel key, the lowest state among equals. -/
def pottsDecide (f : Nat → Val) (q : Nat) (beta : Val) (seed stream tau : Nat) : Nat :=
  ((List.range q).foldl (fun (acc : Option (Val × Nat)) a =>
    let t := riffleBits seed stream ((tau * 256 + a) % 2 ^ 64) 5
    let sc := rn32 ((rn32 (beta.mul (f a))).add (gumbel32 t))
    match acc with
    | none => some (sc, a)
    | some b => if sc.cmp b.1 = .gt then some (sc, a) else some b) none).elim 0 (·.2)

/-- Stream and index of a binary item, and of a POTTS variable (Table 6-2). -/
def suBinary (stream sweep replica varId : Nat) : Nat × Nat :=
  ((stream + sweep / 2 ^ 26) % 2 ^ 32, (sweep % 2 ^ 26) * 2 ^ 38 + replica * 2 ^ 32 + varId)
def suPotts (stream sweep replica varId : Nat) : Nat × Nat :=
  ((stream + sweep / 2 ^ 18) % 2 ^ 32, (sweep % 2 ^ 18) * 2 ^ 38 + replica * 2 ^ 32 + varId)

/-- Decision of one variable from the states as the step began (R136, R139, R147). -/
def SeqCtl.decide (c : SeqCtl) (m : Mem) (seed sweep : Nat) (beta : Val) (v : VarRec × List VarRec) : Nat :=
  if c.potts then
    let si := suPotts c.stream sweep c.replica v.1.varId
    pottsDecide (c.field m v) c.q beta seed si.1 si.2
  else
    let si := suBinary c.stream sweep c.replica v.1.varId
    (binaryDecide (c.field m v 0) beta .one (if c.varKind = 0 then 2 else 1) seed si.1 si.2).1

/-- What a colour step does to the tile: memory, flags, the local slots (sparse) or the (replica, tile row) pairs (dense)
that changed, and the flips per replica. -/
structure StepOut where
  mem : Mem
  flags : Flags := {}
  changed : List Nat := []
  flips : List Nat := []
  deriving DecidableEq, Repr

/-- One sparse step: the new state of every variable of the colour from step-start states, committed together (R147). -/
def SeqCopy.sparseStep (s : SeqCopy) (m : Mem) (got : List (List Byte)) (colour : Nat) (new : VarRec × List VarRec → Nat → Nat) : StepOut :=
  let d := s.dirs.getD colour ⟨0, 0, 0, 0, 0, 0, 0, 0⟩
  let vars := groupVars (s.records m got d.recFirst d.recCount)
  let ds := vars.map fun v =>
    let old := s.ctl.stateOf m s.ctl.stateLine v.1.slot
    (v.1.slot, old, new v old)
  let ch := ds.filter fun x => decide (x.2.1 ≠ x.2.2)
  { mem := ds.foldl (fun m x => s.ctl.putState s.ctl.stateLine m x.1 x.2.2) m
    changed := ch.map (·.1), flips := [ch.length] }

/-! ### Dense block mode -/

/-- A dense block descriptor (Tables 6-4 to 6-6). -/
structure DenseBlock where
  aLine : Nat
  bLine : Nat
  k : Nat
  bColour : Nat
  aMx : Bool
  last : Bool
  biasEn : Bool
  ladderEn : Bool
  varBase : Nat
  biasLine : Nat
  dstLine : Nat
  ladderLine : Nat
  reserved : Bool
  deriving DecidableEq, Repr

def SeqCopy.block (s : SeqCopy) (m : Mem) (i : Nat) : DenseBlock :=
  let a := s.ctl.graphLine * 64 + 32 * i
  let x := m.nat a 8
  let y := m.nat (a + 8) 8
  let z := m.nat (a + 16) 8
  { aLine := bits x 63 48, bLine := bits x 47 32, k := bits x 31 16, bColour := bits x 15 12, aMx := bit x 11,
    last := bit x 10, biasEn := bit x 9, ladderEn := bit x 8, varBase := bits y 63 32, biasLine := bits y 31 16,
    dstLine := bits y 15 0, ladderLine := bits z 63 48
    reserved := decide (bits x 7 0 ≠ 0) || decide (bits z 47 0 ≠ 0) || decide (m.nat (a + 24) 8 ≠ 0) }

/-- Runs of descriptors that end with LAST = 1 (R145). -/
def groupBlocks : List DenseBlock → List DenseBlock → List (List DenseBlock)
  | acc, [] => if acc = [] then [] else [acc]
  | acc, b :: bs => if b.last then (acc ++ [b]) :: groupBlocks [] bs else groupBlocks (acc ++ [b]) bs

/-- Couplings of a block: 64 rows of K values, times the coupling scale (R134, R146). -/
def SeqCtl.denseA (c : SeqCtl) (m : Mem) (b : DenseBlock) : List (List Val) :=
  ((Layout.readRows ⟨b.aLine, 0, 64, b.k, Fmt.ofCode c.jFmt, b.aMx⟩ m)).map
    fun r => r.map fun v => v.scale ((c.jScale : Int) - 127)

/-- State bit of row k, replica j of a SPIN1 tile of 64 columns at a line (R145). -/
def tileBit (m : Mem) (line k j : Nat) : Nat := ((m.byte (line * 64 + 8 * k + j / 8)).toNat >>> (j % 8)) % 2
def spin1 (x : Nat) : Val := if x % 2 = 1 then .one else Val.one.neg

/-- Replica j of a block's state tile. -/
def DenseBlock.col (b : DenseBlock) (m : Mem) (j : Nat) : List Val :=
  (List.range b.k).map fun k => spin1 (tileBit m b.bLine k j)

/-- Terms of four products each (Table 3-1, R145). -/
def terms4 : Nat → List (Val × Val) → List (Val × Bool)
  | 0, _ => []
  | n + 1, xs => termOf (xs.take 4) :: terms4 n (xs.drop 4)

/-- A cell while the blocks of a group enter the array: its pair, what of it stands in the spill slot, TERM_CNT and the flags (R67, R68,
R146). -/
structure FieldCell where
  pair : Pair := Pair.zero
  slot : Option Pair := none
  count : Nat := 0
  flags : Flags := {}
  deriving DecidableEq, Repr

/-- One issue of four products enters a cell; a long issue under SPILL = 1 moves the pair into the slot first (R63, R67-R69). -/
def FieldCell.term (spill : Bool) (x : FieldCell) (t : Val × Bool) : FieldCell :=
  let y : FieldCell := if isLong x.count 4 && spill then
      let r := chainCombine (x.slot.getD Pair.zero) x.pair
      { slot := some r.1, flags := x.flags.or r.2 }
    else x
  let r := cellSum t.1 y.pair
  { y with pair := r.1, count := min (2 ^ 25 - 1) (y.count + 4), flags := y.flags.or { r.2 with nv := r.2.nv || t.2 } }

/-- The value the drain takes (R70). -/
def FieldCell.value (x : FieldCell) : Pair × Flags :=
  match x.slot with
  | some q =>
    let r := chainCombine q x.pair
    (r.1, x.flags.or r.2)
  | none => (x.pair, x.flags)

/-- One cell over a run of blocks, in list order (R146). -/
def denseCell (spill : Bool) (rows cols : List (List Val)) : FieldCell :=
  ((rows.zip cols).flatMap fun rc => terms4 ((rc.1.length + 3) / 4) (rc.1.zip rc.2)).foldl (FieldCell.term spill) {}

/-- The 64 x 64 cells of a variable group, row by row. -/
def SeqCtl.denseCells (c : SeqCtl) (spill : Bool) (m : Mem) (g : List DenseBlock) : List (List FieldCell) :=
  let as := g.map (c.denseA m)
  let cols := (List.range 64).map fun j => g.map fun b => b.col m j
  (List.range 64).map fun i => cols.map fun col => denseCell spill (as.map fun a => a.getD i []) col

/-- The 64 x 64 fields of a variable group, row by row. -/
def SeqCtl.denseFields (c : SeqCtl) (spill : Bool) (m : Mem) (g : List DenseBlock) : List (List (Pair × Flags)) :=
  (c.denseCells spill m g).map fun r => r.map FieldCell.value

/-- Terms of a variable group: TERM_CNT at its drain, were it not bounded (R67). -/
def groupTerms (g : List DenseBlock) : Nat := (g.map DenseBlock.k).sum

/-- What the spill combinations of the groups leave in the slot at SPILL_LINE (R68). -/
def fieldSpills (c : SeqCtl) (ctrl : BitVec 32) (m : Mem) (gs : List (List DenseBlock)) : List (Nat × List Byte) :=
  if spillOn ctrl then
    (gs.filter fun g => decide (2 ^ 25 ≤ groupTerms g)).map fun g =>
      (spillLine ctrl * 64, pairBytes ((c.denseCells true m g).flatMap fun r => r.map fun x => x.slot.getD Pair.zero))
  else []

/-- The descriptor that decides for a group: its last. -/
def lastBlock (g : List DenseBlock) : Option DenseBlock := g.getLast?

/-- Bias of row i (R145). -/
def DenseBlock.bias (b : DenseBlock) (m : Mem) (i : Nat) : Val :=
  if b.biasEn then f32 (BitVec.ofNat 32 (m.nat (b.biasLine * 64 + 4 * i) 4)) else .zero
/-- Ladder factor of replica j (R146). -/
def DenseBlock.ladder (b : DenseBlock) (m : Mem) (j : Nat) : Val :=
  if b.ladderEn then f32 (BitVec.ofNat 32 (m.nat (b.ladderLine * 64 + 4 * j) 4)) else .one

/-- The 512 bytes of a decided state tile from its bits, row by row. -/
def tileBytes (rows : List (List Nat)) : List Byte := rows.flatMap fun r => leBytes 8 (packNat 1 r)

/-- Decisions of one variable group (R146). The ladder factor enters as it stands (log 132). -/
def SeqCtl.denseDecide (c : SeqCtl) (spill : Bool) (m : Mem) (seed sweep : Nat) (beta : Val) (g : List DenseBlock) :
    List (List Nat) × Flags :=
  match lastBlock g with
  | none => ([], {})
  | some b =>
    let lads := (List.range 64).map (b.ladder m)
    let rs := (c.denseFields spill m g).mapIdx fun i row =>
      let bias := b.bias m i
      row.mapIdx fun j f =>
        let si := suBinary c.stream sweep j ((b.varBase + i) % 2 ^ 32)
        let d := binaryDecide (f.1.val.add bias) beta (lads.getD j .one) 2 seed si.1 si.2
        (d.1, f.2.or d.2)
    (rs.map fun r => r.map (·.1), rs.foldl (fun (a : Flags) r => r.foldl (fun (x : Flags) y => x.or y.2) a) {})

/-- Variable groups of a colour (R145, R152). -/
def SeqCopy.groups (s : SeqCopy) (m : Mem) (colour : Nat) : List (List DenseBlock) :=
  let d := s.dirs.getD colour ⟨0, 0, 0, 0, 0, 0, 0, 0⟩
  groupBlocks [] ((List.range d.recCount).map fun i => s.block m (d.recFirst + i))

/-- One dense step: every group's new tile from step-start states, committed together (R146, R147). -/
def SeqCopy.denseStep (s : SeqCopy) (m : Mem) (colour : Nat) (new : List DenseBlock → List (List Nat) × Flags) : StepOut :=
  let outs := (s.groups m colour).filterMap fun g => (lastBlock g).map fun b => (b.dstLine, new g)
  let flipsOf := fun j => outs.foldl (fun n o => n + ((o.2.1.mapIdx fun i row =>
    if row.getD j 0 = tileBit m o.1 i j then 0 else 1).sum)) 0
  { mem := outs.foldl (fun m o => m.write (o.1 * 64) (tileBytes o.2.1)) m
    flags := outs.foldl (fun (f : Flags) o => f.or o.2.2) {}
    flips := (List.range 64).map flipsOf }

/-- The variable groups whose fields a colour step forms in the array: none in rotation (R146, R166). -/
def SeqCopy.fieldGroups (s : SeqCopy) (m : Mem) (colour : Nat) : List (List DenseBlock) :=
  if s.ctl.dense && !s.ctl.rotate then s.groups m colour else []

/-- A colour step (R147) at an inverse temperature, or a rotation step (R166). -/
def SeqCopy.colourStep (s : SeqCopy) (spill : Bool) (m : Mem) (seed : Nat) (got : List (List Byte)) (sweep colour : Nat) (beta : BitVec 32) :
    StepOut :=
  let b := f32 beta
  if s.ctl.dense then
    if s.ctl.rotate then s.denseStep m colour fun g =>
      match lastBlock g with
      | none => ([], {})
      | some x => ((List.range 64).map fun i => (List.range 64).map fun j => 1 - tileBit m x.dstLine i j, {})
    else s.denseStep m colour (s.ctl.denseDecide spill m seed sweep b)
  else if s.ctl.rotate then s.sparseStep m got colour fun _ old => (old + 1) % s.ctl.q
  else s.sparseStep m got colour fun v _ => s.ctl.decide m seed sweep b v

/-! ### Coupled flips (R149) -/

/-- Whether a coupling byte stands for a non-zero value. -/
def SeqCtl.jNonZero (c : SeqCtl) (x : Nat) : Bool := !(decodeElem (Fmt.ofCode c.jFmt) x).isZero

/-- Whether a reference's target has the colour: a local slot or a halo slot of that colour's range (R148). -/
def SeqCopy.sameColour (s : SeqCopy) (colour ref : Nat) : Bool :=
  let d := s.dirs.getD colour ⟨0, 0, 0, 0, 0, 0, 0, 0⟩
  let n := ref % 2 ^ 23
  if bit ref 31 then decide (d.haloFirst ≤ n) && decide (n < d.haloFirst + d.haloCount)
  else decide (d.slotFirst ≤ n) && decide (n < d.slotFirst + d.slotCount)

/-- Coupled flips of a sparse step, from the changed local slots and the halo before and after the copy. -/
def SeqCopy.sparseCflips (s : SeqCopy) (before after : Mem) (got : List (List Byte)) (colour : Nat) (changed : List Nat) : Nat :=
  let d := s.dirs.getD colour ⟨0, 0, 0, 0, 0, 0, 0, 0⟩
  let moved := fun ref =>
    if bit ref 31 then
      decide (s.ctl.stateOf before s.ctl.haloLine (ref % 2 ^ 23) ≠ s.ctl.stateOf after s.ctl.haloLine (ref % 2 ^ 23))
    else changed.contains (ref % 2 ^ 23)
  ((groupVars (s.records after got d.recFirst d.recCount)).filter fun v =>
    changed.contains v.1.slot &&
      (v.2.flatMap VarRec.nbrs).any fun n => s.ctl.jNonZero n.1 && s.sameColour colour n.2 && moved n.2).length

/-- Coupled flips of a dense step for replica j: a changed update with a non-zero coupling, in a block of its own colour,
to a state that changed. -/
def SeqCopy.denseCflips (s : SeqCopy) (before after : Mem) (colour j : Nat) : Nat :=
  ((s.groups after colour).map fun g =>
    match lastBlock g with
    | none => 0
    | some b =>
      let own := g.filter fun x => decide (x.bColour = colour)
      ((List.range 64).filter fun i =>
        decide (tileBit before b.dstLine i j ≠ tileBit after b.dstLine i j) &&
          own.any fun x =>
            (((s.ctl.denseA after x).getD i []).mapIdx fun k v =>
              !v.isZero && decide (tileBit before x.bLine k j ≠ tileBit after x.bLine k j)).any id).length).sum

/-! ### CHECK (R154) -/

/-- What CHECK finds: nothing, a failure of categories 1 to 3, or the first colour conflict. -/
inductive CheckResult
  | ok
  | format
  | conflict (varA ref : Nat)
  deriving DecidableEq, Repr

/-- A byte range inside the partition's tile SRAM allocation, lines 0 to 0xFBFF (R195). -/
def inAlloc (addr len : Nat) : Bool := decide (addr + len ≤ 0xFC00 * 64)

def finiteNonNeg (x : BitVec 32) : Bool := (f32 x).isFinite && (decide (x.toNat < 2 ^ 31) || decide (x.toNat = 2 ^ 31))

/-- Control block, directories, schedule, peers and exports (R154, categories 1 to 3), and the capacity for resident records (R171; log
133). -/
def SeqCopy.formOk (s : SeqCopy) (ctrlLine : Nat) (words : List Word) (panel : Nat) (inPart : Nat → Bool) : Bool :=
  let c := s.ctl
  let g := fun i => (words.getD i 0).toNat
  let used := s.dirs.take c.ncol
  let slots := s.dirs.foldl (fun n d => max n (d.slotFirst + d.slotCount)) 0
  let halos := s.dirs.foldl (fun n d => max n (d.haloFirst + d.haloCount)) 0
  let vec := fun n => if c.potts then n else (n + 7) / 8
  let exps := s.dirs.foldl (fun n d => max n (d.expFirst + d.expCount)) 0
  decide (c.suKind ≤ 2) && decide (c.varKind ≤ 2) && decide (bits (g 0) 25 16 = 0) && decide (bits (g 2) 35 32 = 0) &&
  decide (bits (g 5) 15 8 = 0) && decide (g 6 = 0) && decide (g 7 = 0) &&
  (decide (c.jFmt = 0xB) || decide (c.jFmt = 4) || decide (c.jFmt = 5)) && decide (c.jScale ≠ 255) &&
  (if c.potts then decide (2 ≤ c.q) else decide (c.q = 2)) && (!c.dense || decide (c.varKind = 0)) &&
  (if c.traceEvery = 0 then decide (c.traceCap = 0) else decide (1 ≤ c.traceCap)) && decide (c.peers ≤ 64) &&
  inAlloc (ctrlLine * 64) 576 &&
  (c.rotate || (inAlloc (c.schedLine * 64) (8 * c.schedLen) &&
    s.sched.all fun e => finiteNonNeg e.beta && decide (1 ≤ e.count))) &&
  inAlloc (c.peerLine * 64) (4 * c.peers) && inAlloc (c.stageLine * 64) (128 * c.stageLines) &&
  (decide (c.traceEvery = 0) || (inAlloc (c.traceLine * 64) (32 * c.traceCap) && inAlloc (c.chainLine * 64) 24)) &&
  inAlloc (c.exportLine * 64) (16 * exps) &&
  (c.dense || (inAlloc (c.stateLine * 64) (vec slots) && inAlloc (c.haloLine * 64) (vec halos))) &&
  inAlloc (c.graphLine * 64) (if c.streamed then c.ringLines * 64 else (if c.dense then 32 else 96) * s.recCount) &&
  (used.all fun d => decide (d.slotFirst + d.slotCount ≤ 2 ^ 23) && decide (d.haloFirst + d.haloCount ≤ 2 ^ 23) &&
    (!c.dense || (decide (d.slotFirst = 0) && decide (d.slotCount = 0)))) &&
  ((s.dirs.drop c.ncol).all fun d => d == ⟨0, 0, 0, 0, 0, 0, 0, 0⟩) &&
  (c.dense || c.streamed || decide (s.order.length ≤ 32768)) &&
  (s.peers.all fun p => decide (p.panel ≠ panel) || inPart p.tile) &&
  (s.exports.all fun e => decide (e.peer < c.peers) && decide (e.reserved = 0) &&
    decide (e.kind = if c.dense then 1 else 0) && (if c.dense then inAlloc (e.src * 64) 512 else decide (e.src < slots)))

/-- One record against Table 6-3 and R141, R143, R152; `prev` is the record before it and `chain` counts continuations. -/
def SeqCopy.recordOk (s : SeqCopy) (m : Mem) (colour : Nat) (d : DirEntry) (prev : Option VarRec) (chain : Nat) (r : VarRec) : Bool :=
  let c := s.ctl
  decide (r.slotWord < 2 ^ 23) && decide (bits r.flags 6 4 = 0) && decide (r.colour = colour) && decide (r.deg ≤ 16) &&
  decide (d.slotFirst ≤ r.slot) && decide (r.slot < d.slotFirst + d.slotCount) &&
  ((r.js.drop r.deg).all fun x => decide (x = 0)) && ((r.refs.drop r.deg).all fun x => decide (x = 0)) &&
  (r.refs.all fun x => decide (bits x 30 23 = 0)) &&
  (r.nbrs.all fun n => (decodeElem (Fmt.ofCode c.jFmt) n.1).isFinite) &&
  (decodeElem fp16Fmt r.bias).isFinite &&
  (if c.potts then decide (r.bias = 0) &&
      (decide (r.biasRow = 0xFFFFFFFF) ||
        (inAlloc (c.biasLine * 64 + r.biasRow * c.q * 2) (c.q * 2) &&
          (List.range c.q).all fun a => (c.bias m r a).isFinite))
    else decide (r.biasRow = 0xFFFFFFFF)) &&
  (if r.cont then
    decide (chain < 15) && decide (r.bias = 0) &&
      (match prev with
       | some p => decide (p.varId = r.varId) && decide (p.slotWord = r.slotWord) && decide (p.colour = r.colour)
       | none => false)
   else true)

/-- Every record of one colour, in directory order. -/
def SeqCopy.recordsOk (s : SeqCopy) (m : Mem) (colour : Nat) (d : DirEntry) : Option VarRec → Nat → List VarRec → Bool
  | _, _, [] => true
  | prev, chain, r :: rs =>
    s.recordOk m colour d prev chain r && s.recordsOk m colour d (some r) (if r.cont then chain + 1 else 0) rs

/-- One block descriptor against Tables 6-4 to 6-6 and R145; `prev` is the open run's VAR_BASE. -/
def SeqCopy.blockOk (b : DenseBlock) (prev : Option Nat) : Bool :=
  !b.reserved && decide (b.k % 4 = 0) && decide (4 ≤ b.k) && decide (b.k ≤ 4096) &&
  inAlloc (b.bLine * 64) (8 * b.k) && inAlloc (b.dstLine * 64) 512 &&
  (!b.biasEn || inAlloc (b.biasLine * 64) 256) && (!b.ladderEn || inAlloc (b.ladderLine * 64) 256) &&
  (match prev with
   | some v => decide (v = b.varBase)
   | none => true)

def SeqCopy.blocksOk (s : SeqCopy) : Option Nat → List DenseBlock → Bool
  | prev, [] => prev.isNone
  | prev, b :: bs =>
    SeqCopy.blockOk b prev && decide ((Layout.mk b.aLine 0 64 b.k (Fmt.ofCode s.ctl.jFmt) b.aMx).endAddr ≤ 0xFC00 * 64) &&
      (!b.aMx || (Fmt.ofCode s.ctl.jFmt).mxOk) && s.blocksOk (if b.last then none else some b.varBase) bs

/-- The first conflict of one colour's records (R148). -/
def SeqCopy.conflictIn (s : SeqCopy) (colour : Nat) (rs : List VarRec) : Option (Nat × Nat) :=
  rs.findSome? fun r => (r.nbrs.find? fun n => s.ctl.jNonZero n.1 && s.sameColour colour n.2).map fun n => (r.varId, n.2)

/-- The first conflict of a dense colour: a non-zero coupling in a block of the group's own colour (R148). -/
def SeqCopy.denseConflict (s : SeqCopy) (m : Mem) (colour : Nat) (d : DirEntry) : Option (Nat × Nat) :=
  (List.range d.recCount).findSome? fun i =>
    let b := s.block m (d.recFirst + i)
    if b.bColour = colour then
      ((s.ctl.denseA m b).zipIdx.find? fun r => r.1.any fun v => !v.isZero).map
        fun r => ((b.varBase + r.2) % 2 ^ 32, d.recFirst + i)
    else none

/-- CHECK: everything read before it decides; categories 1 to 3 first, then conflicts (R148, R154). -/
def SeqCopy.check (s : SeqCopy) (m : Mem) (got : List (List Byte)) (ctrlLine : Nat) (words : List Word) (panel : Nat) (inPart : Nat → Bool) :
    CheckResult :=
  let used := (s.dirs.take s.ctl.ncol).zipIdx
  if !s.formOk ctrlLine words panel inPart then .format
  else if s.ctl.dense then
    if used.all fun dc => s.blocksOk none ((List.range dc.1.recCount).map fun i => s.block m (dc.1.recFirst + i)) then
      if s.ctl.relaxed then .ok
      else match used.findSome? fun dc => s.denseConflict m dc.2 dc.1 with
        | some x => .conflict x.1 x.2
        | none => .ok
    else .format
  else if used.all fun dc => s.recordsOk m dc.2 dc.1 none 0 (s.records m got dc.1.recFirst dc.1.recCount) then
    if s.ctl.relaxed then .ok
    else match used.findSome? fun dc => s.conflictIn dc.2 (s.records m got dc.1.recFirst dc.1.recCount) with
      | some x => .conflict x.1 x.2
      | none => .ok
  else .format

/-! ### Energy (R158, R159) -/

/-- Accumulates exact terms into a pair by R63. -/
def accumTerms (xs : List Val) : Pair × Flags :=
  xs.foldl (fun acc x => let r := cellSum x acc.1; (r.1, acc.2.or r.2)) (Pair.zero, {})

/-- e_i of a variable (R158). -/
def SeqCtl.energyTerm (c : SeqCtl) (m : Mem) (v : VarRec × List VarRec) : Val :=
  let st := c.stateOf m c.stateLine v.1.slot
  let pair := sumVals ((v.2.flatMap VarRec.nbrs).map fun n => (c.jVal n.1).mul (c.pairVal st (c.refState m n.2)))
  let b := if c.potts then c.bias m v.1 st else (c.bias m v.1 0).mul (c.spin st)
  ((pair.scale (-1)).add b).neg

/-- s_i of a variable: 0 for POTTS (R158). -/
def SeqCtl.magTerm (c : SeqCtl) (m : Mem) (v : VarRec × List VarRec) : Val :=
  if c.potts then .zero else c.spin (c.stateOf m c.stateLine v.1.slot)

/-- The four entries of one sparse partial. -/
def SeqCtl.partial4 (c : SeqCtl) (m : Mem) (vs : List (VarRec × List VarRec)) (flips cflips : Nat) : List Pair × Flags :=
  let e := accumTerms (vs.map (c.energyTerm m))
  let g := accumTerms (vs.map (c.magTerm m))
  ([e.1, g.1, (accumTerms [Val.ofInt flips]).1, (accumTerms [Val.ofInt cflips]).1], e.2.or g.2)

/-- Insertion by VAR_ID, for the CANONICAL order of R158. -/
def insertVar (v : VarRec × List VarRec) : List (VarRec × List VarRec) → List (VarRec × List VarRec)
  | [] => [v]
  | w :: ws => if v.1.varId ≤ w.1.varId then v :: w :: ws else w :: insertVar v ws

/-- The tile's partials in sparse mode: one in TREE mode; in CANONICAL mode one for every segment of 4,096 VAR_IDs the
tile's chain instruction names. A VAR_ID outside them enters the nearest (R158; DEDUCED, log 8). -/
def SeqCopy.sparsePartials (s : SeqCopy) (m : Mem) (got : List (List Byte)) (canon : Bool) (ch : ChainWords) (flips cflips : Nat) :
    List (List Pair) × Flags :=
  let vs := groupVars (s.allRecords m got)
  if canon then
    let sorted := vs.foldr insertVar []
    let seg := fun (v : VarRec × List VarRec) => min (ch.span - 1) (v.1.varId / 4096 - ch.segFirst)
    let ps := (List.range ch.span).map fun g =>
      s.ctl.partial4 m (sorted.filter fun v => decide (seg v = g)) (if g = 0 then flips else 0) (if g = 0 then cflips else 0)
    (ps.map (·.1), ps.foldl (fun (f : Flags) p => f.or p.2) {})
  else
    let p := s.ctl.partial4 m vs flips cflips
    ([p.1], p.2)

/-- Rows of a dense run: the deciding descriptor, the row and its fields. -/
abbrev DenseRow := DenseBlock × Nat × List (Pair × Flags)

def DenseBlock.varId (b : DenseBlock) (i : Nat) : Nat := (b.varBase + i) % 2 ^ 32

/-- Insertion by VAR_ID, for the CANONICAL order of R158. -/
def insertRow (r : DenseRow) : List DenseRow → List DenseRow
  | [] => [r]
  | w :: ws => if r.1.varId r.2.1 ≤ w.1.varId w.2.1 then r :: w :: ws else w :: insertRow r ws

/-- The 256 entries of one dense partial, replica-major, with the flags of the fields evaluated again (R158). -/
def densePartial (m : Mem) (rows : List DenseRow) (flips cflips : List Nat) : List Pair × Flags :=
  let per := (List.range 64).map fun j =>
    let e := accumTerms (rows.map fun r =>
      let st := spin1 (tileBit m r.1.dstLine r.2.1 j)
      let v := ((r.2.2.getD j (Pair.zero, {})).1).val
      ((((st.mul v)).scale (-1)).add ((r.1.bias m r.2.1).mul st)).neg)
    let g := accumTerms (rows.map fun r => spin1 (tileBit m r.1.dstLine r.2.1 j))
    let h := rows.foldl (fun (f : Flags) r => f.or (r.2.2.getD j (Pair.zero, {})).2) {}
    ([e.1, g.1, (accumTerms [Val.ofInt (flips.getD j 0)]).1, (accumTerms [Val.ofInt (cflips.getD j 0)]).1], (e.2.or g.2).or h)
  (per.flatMap (·.1), per.foldl (fun (f : Flags) p => f.or p.2) {})

/-- The tile's partials in dense mode, segmented as in sparse mode (R158). -/
def SeqCopy.densePartials (s : SeqCopy) (spill : Bool) (m : Mem) (canon : Bool) (ch : ChainWords) (flips cflips : List Nat) : List (List Pair) × Flags :=
  let groups := (List.range s.ctl.ncol).flatMap (s.groups m)
  let rows : List DenseRow := groups.flatMap fun g =>
    match lastBlock g with
    | none => []
    | some b => (s.ctl.denseFields spill m g).mapIdx fun i row => (b, i, row)
  if canon then
    let sorted := rows.foldr insertRow []
    let seg := fun (r : DenseRow) => min (ch.span - 1) (r.1.varId r.2.1 / 4096 - ch.segFirst)
    let ps := (List.range ch.span).map fun g =>
      densePartial m (sorted.filter fun r => decide (seg r = g)) (if g = 0 then flips else []) (if g = 0 then cflips else [])
    (ps.map (·.1), ps.foldl (fun (f : Flags) p => f.or p.2) {})
  else
    let p := densePartial m rows flips cflips
    ([p.1], p.2)

/-- The integer a pair of an exact integer sum stands for (R158). -/
def pairInt (p : Pair) : Int :=
  match p.val with
  | .fin n man e =>
    let k : Nat := if 0 ≤ e then man * 2 ^ e.toNat else man / 2 ^ (-e).toNat
    if n then -(k : Int) else k
  | _ => 0

/-- An energy-trace record (Table 6-16). -/
def traceRecord (sweep : Nat) (beta : BitVec 32) (es : List Pair) (replica : Nat) (rot relaxed final : Bool) : List Byte :=
  let e := es.getD 0 Pair.zero
  let mag := pairInt (es.getD 1 Pair.zero)
  let fl := (pairInt (es.getD 2 Pair.zero)).toNat
  let cf := (pairInt (es.getD 3 Pair.zero)).toNat
  let sat := decide (0xFFFFFFFF < fl) || decide (0xFFFF < cf)
  leBytes 4 sweep ++ leBytes 4 beta.toNat ++ leBytes 8 e.toNat ++ leBytes 8 (mag % 2 ^ 64).toNat ++
    leBytes 4 (min fl 0xFFFFFFFF) ++ leBytes 2 (min cf 0xFFFF) ++
    [BitVec.ofNat 8 replica,
     BitVec.ofNat 8 ((if rot then 1 else 0) + (if relaxed then 2 else 0) + (if sat then 4 else 0) + (if final then 8 else 0))]

/-! ### Rotation digest (R167) -/

/-- CRC-64 of the state vector and the halo vector; in dense mode of every group's state tile and block tile
(DEDUCED, log 9). -/
def SeqCopy.digest (s : SeqCopy) (m : Mem) : Nat :=
  if s.ctl.dense then
    ((List.range s.ctl.ncol).flatMap (s.groups m)).foldl (fun c g =>
      g.foldl (fun c b => crc64 c (m.read (b.bLine * 64) (8 * b.k)))
        (match lastBlock g with
         | some b => crc64 c (m.read (b.dstLine * 64) 512)
         | none => c)) 0
  else
    let slots := s.dirs.foldl (fun n d => max n (d.slotFirst + d.slotCount)) 0
    let halos := s.dirs.foldl (fun n d => max n (d.haloFirst + d.haloCount)) 0
    let vec := fun n => if s.ctl.potts then n else (n + 7) / 8
    crc64 (crc64 0 (m.read (s.ctl.stateLine * 64) (vec slots))) (m.read (s.ctl.haloLine * 64) (vec halos))

end Sys2Proof.Machine
end

