-- ==== Sys2Proof/Machine/HbmState.lean ====
section
/-! DEFINITION. State of the HBM stacks and their controllers, and of one ferry (chapter 9). -/

namespace Sys2Proof.Machine

/-- One stack and its controller (R226-R229). -/
structure Stack where
  /-- Declared lost (R233). -/
  lost : Bool := false
  /-- Stack temperature, degrees Celsius (R228). -/
  temp : Nat := 0
  /-- Bank refreshes done, which set the refresh place. -/
  refreshes : Nat := 0
  /-- Next block of the patrol scrub, 0 to 2^28 - 1 (R229). -/
  scrub : Nat := 0
  /-- Rows repaired (Table 17-9, action 4): HPA bits 35:14. -/
  repaired : List Nat := []
  /-- PHY lane repairs since device reset (Table 17-9, action 5). -/
  phyLanes : Nat := 0
  deriving DecidableEq, Repr

/-- Ferry STATE (Table 9-11). -/
inductive FerryPhase where
  | idle | run | done | faultWait | failed | preempted
  deriving DecidableEq, Repr

/-- Encoding of ferry STATE (Table 9-11). -/
def FerryPhase.code : FerryPhase → Nat
  | .idle => 0 | .run => 1 | .done => 2 | .faultWait => 3 | .failed => 4 | .preempted => 5

/-- One descriptor slot with its progress (R243, R248). -/
structure Slot where
  /-- The eight words (Tables 9-5 to 9-8). -/
  words : List Word := []
  phase : FerryPhase := .idle
  done : Nat := 0
  faultCode : Nat := 0
  faultVa : Nat := 0
  seq : BitVec 32 := 0
  /-- ISEQ the FERRY took (R276). -/
  iseq : BitVec 32 := 0
  /-- A DST_SPACE PORT descriptor has sent its message (R301). -/
  portSent : Bool := false
  /-- Waits for the ACK of the last write (FENCE, R203). -/
  fenced : Bool := false
  /-- Held on a locked page (R238). -/
  locked : Bool := false
  /-- A SRC_SPACE PORT descriptor has its message (R303). -/
  portDone : Bool := false
  /-- The message that the descriptor has taken or sent (R301, R303). -/
  msg : List Byte := []
  /-- Positions that a descriptor with DST_SPACE PORT has read (R301). -/
  fetched : Nat := 0
  /-- Positions that the sequencer has counted as records in its ring (R144). -/
  fed : Nat := 0
  /-- Sum of the contributions digested so far, for the instruction ring (R276). -/
  sum : Word := 0
  deriving DecidableEq, Repr

/-- One ferry (R237-R249). -/
structure Ferry where
  slots : Tab Slot := []
  /-- Virtual page numbers with their PTEs, most recently used first, at most 256 (R237). -/
  tlb : List (Nat × Word) := []
  descSeq : BitVec 32 := 0
  /-- FERRY_STATUS (Table 9-3): requests in flight by key generation, and the high-water mark. -/
  flight0 : Nat := 0
  flight1 : Nat := 0
  inflightMax : Nat := 0

  /-- Page invalidations not yet acknowledged (R240). -/
  invalidating : List Nat := []
  deriving DecidableEq, Repr

/-- A change of a mapped PTE in progress (R240). -/
structure PteChange where
  part : Nat
  vpn : Nat
  /-- The entry to be written once every ferry has acknowledged. -/
  pte : Word
  deriving DecidableEq, Repr

/-- Chapter 9 state outside tiles and partitions. -/
structure HbmState where
  stackTab : Tab Stack := []
  /-- Contents by HPA, in the clear: the cipher of R414 is transparent (log 12). -/
  mem : Mem := []
  /-- Blocks that return poisoned, by HPA >> 8 (R229). -/
  poisoned : List Nat := []
  /-- Owner of each frame in use: the FRAME field of a PTE (21 bits) plus 2^21 for a parity page; 0 names firmware. -/
  owned : Tab Nat := []
  /-- Frames retired (Table 17-9, action 6). -/
  retired : List Nat := []
  changes : List PteChange := []
  deriving DecidableEq, Repr

end Sys2Proof.Machine
end

