-- ==== Sys2Proof/Machine/TileState.lean ====
section
/-! DEFINITION. State of one logical tile: registers, SRAM and units (chapters 2 to 10). -/

namespace Sys2Proof.Machine

/-- What the sequencer of a tile is doing (Table 6-13). -/
inductive SeqPhase where
  | idle | check | prime | run | energy | halt | fault
  deriving DecidableEq, Repr

/-- A word that a Riffle lane has delivered (R127): its stream, word index and value. -/
structure RiffleWord where
  stream : BitVec 32
  index : Word
  value : Word
  deriving DecidableEq, Repr

/-- The anneal sequencer of a tile (R150-R172). -/
structure SeqState where
  /-- Control words 0-5 as SU_RUN copied them (Tables 6-7 to 6-12). -/
  words : List Word := []
  copy : Option SeqCopy := none
  ctrlLine : Nat := 0
  phase : SeqPhase := .idle
  /-- ISEQ of the SU_RUN. -/
  iseq : BitVec 32 := 0
  /-- Sweep number, sweeps done in this run, schedule entry and repetition (R155). -/
  sweep : Nat := 0
  sweepsDone : Nat := 0
  entry : Nat := 0
  rep : Nat := 0
  colour : Nat := 0
  /-- Step counter k + 1, PRIME being 0; its parity names the staging half (R162). -/
  step : Nat := 0
  /-- Peers whose END has arrived, by step parity (R161). -/
  ends0 : List Nat := []
  ends1 : List Nat := []
  /-- Bytes waiting in each staging half: halo slot and value. -/
  stage0 : List (Nat × Nat) := []
  stage1 : List (Nat × Nat) := []
  /-- The compute part of the present step is done and END is sent; staging copy is awaited. -/
  waitEnd : Bool := false
  /-- FLIPS and CFLIPS per replica of the sweep (R158). -/
  flips : List Nat := []
  cflips : List Nat := []
  /-- Changed slots of the last colour step, and SRAM before it, for CFLIPS (R159). -/
  changed : List Nat := []
  before : Mem := []
  /-- Digest of R167. -/
  rotDigest : Word := 0
  /-- Trace ring write and read counts (R160). -/
  traceWr : Nat := 0
  traceRd : Nat := 0
  traceWait : Bool := false
  /-- SEQ_CONFLICT (Table 6-15). -/
  conflict : Word := 0
  /-- SEQ_CONFLICT holds a conflict (Table 6-13). -/
  errFlag : Bool := false
  /-- The sweep has ended: false while the partition's boundary is awaited, true once it has passed (R157). -/
  gate : Option Bool := none
  /-- The records of a streamed run: bytes of the ring that the ferry's progress records show as written, bytes taken from it, and the
  records taken that no pass has left behind, in directory order (R144). -/
  ringWr : Nat := 0
  ringRd : Nat := 0
  got : List (List Byte) := []
  /-- The colour step that waits for its records (R144). -/
  due : Option Nat := none
  /-- PRIME is to be restarted (R168). -/
  again : Bool := false
  deriving DecidableEq, Repr

/-- A boundary value in flight on VC2, or an END marker on VC0, from one tile to another (R161, R163). -/
inductive SuFlit where
  | value (step slot v : Nat)
  | endMark (step : Nat)
  deriving DecidableEq, Repr

/-- The virtual channel of a boundary flit (R163). -/
def SuFlit.vc : SuFlit → Nat
  | .value _ _ _ => 2
  | .endMark _ => 0

/-- Barrier state of one tile (R207, R511). -/
structure BarState where
  /-- The BARRIER (false) or STEP (true) the tile has issued and not completed. -/
  issued : Option Bool := none
  /-- Upstream arrivals held: source tile, kind, failed mark. -/
  held : List (Nat × Bool × Bool) := []
  /-- ARRIVE sent on. -/
  sent : Bool := false
  /-- RELEASE flit on its way to this tile: the failed mark. -/
  release : Option Bool := none
  /-- ISEQ that the BARRIER or STEP took (R276). -/
  iseq : BitVec 32 := 0
  deriving DecidableEq, Repr

/-- One logical tile. -/
structure TileState where
  sram : Mem := []
  /-- FP_STATUS (Table 2-7). -/
  fp : BitVec 32 := 0
  array : ArrayState := {}
  /-- Vector-queue registers (R122). -/
  vq : List Word := [0, 0, 0, 0]
  /-- RIFFLE_SEED_HI and RIFFLE_SEED_LO (Tables 5-1, 5-2). -/
  seedHi : Word := 0
  seedLo : Word := 0
  /-- RIFFLE_STATUS fields (Table 5-9). -/
  checkErr : Bool := false
  romErr : Bool := false
  katFail : Bool := false
  /-- The lane that the check lane recomputes in cycle 0 of the tile's clock; in cycle c it is the c-th after it (R130). -/
  checkLane : BitVec 6 := 0
  riffleBuf : List RiffleWord := []
  /-- Riffle delivery stopped by a detector (R130). -/
  riffleStop : Bool := false
  /-- DRAW_PROGRESS (Table 7-11). -/
  drawBusy : Bool := false
  drawRows : BitVec 15 := 0
  /-- ISEQ that the DRAW in progress took (R276), and what its rows have written, for its contributions to the step digest (R273). -/
  drawIseq : BitVec 32 := 0
  drawWrites : List (Nat × List Byte) := []
  /-- Chain queue, oldest first, at most two entries (R98). -/
  chains : List ChainEntry := []
  /-- The chain-queue registers: the three words of each of two entries (R98; log 114). -/
  chainRegs : List Word := [0, 0, 0, 0, 0, 0]
  /-- Chain instructions withdrawn by a PREEMPT behind which later ones had already left the stream, oldest first: dispatched again on
  resume (R109; log 118). -/
  withdrawn : List ChainEntry := []
  /-- Ready tokens that came before the entry they are for: identifier and step (R103). -/
  tokens : List (Nat × Nat) := []
  /-- VC1 flits on their way to this tile: the IN_DIR side they come from, oldest first (R102). -/
  vc1 : List (Nat × ChainFlit) := []
  seq : SeqState := {}
  /-- VC2 exports and END markers on their way to this tile, with their source tile, oldest first (R203). -/
  su : List (Nat × SuFlit) := []
  ferry : Ferry := {}
  bar : BarState := {}
  /-- Instructions dispatched in the stream, loop counters (start position and repetitions left), END (R354-R360). -/
  pos : Nat := 0
  loops : List (Nat × Nat) := []
  ended : Bool := false
  /-- Dispatch stopped: the job has failed or is being ended (R87, R511). -/
  halted : Bool := false
  /-- The instruction at the front waits: WAIT_FERRY on a slot and count (R356). -/
  waitFerry : Option (Nat × Nat) := none
  /-- ISEQ that the WAIT_FERRY took (R276). -/
  waitIseq : BitVec 32 := 0
  /-- Trace unit: ISEQ, TILE_ACC and EYEPIECE (R273-R276). -/
  iseq : BitVec 32 := 0
  acc : Word := 0
  eyepiece : Word := 0
  deriving DecidableEq, Repr

end Sys2Proof.Machine
end

