-- ==== Sys2Proof/Machine/TrustState.lean ====
section
/-! DEFINITION. State of Sheldo, the root of trust (chapter 14), outside the persistent registers. -/

namespace Sys2Proof.Machine

/-- A memory key pair (K1, K2), 64 bytes (R407, R414). -/
abbrev KeyPair := List Byte

/-- An entry of the link table (R411). -/
structure Link where
  peer : Nat
  secret : List Byte
  peerEpoch : BitVec 32
  /-- Highest MPJ_ID opened, by local partition (R412). -/
  maxMpj : Tab Nat := []
  deriving DecidableEq, Repr

/-- A rotation sweep in progress (R416). -/
structure Rotation where
  tag : BitVec 32
  oldGen : Nat
  /-- VA pages still to be swept, ascending. -/
  todo : List Nat
  swept : Nat
  deriving DecidableEq, Repr

/-- Chapter 14 state outside the persistent registers. -/
structure TrustState where
  /-- The device secret fuses; none when not fused or blown (R400). -/
  deviceSecret : Option (List Byte) := none
  /-- Identity and seal key pairs: public then private (R403). -/
  identity : Option (List Byte × List Byte) := none
  sealKey : Option (List Byte × List Byte) := none
  cert : List Byte := []
  /-- Sheldo's firmware region in the Almanac (R400). -/
  rotFirmware : List Byte := []
  /-- MEM slots: slot 2 (p - 1) + g (Table 14-8). -/
  memKeys : Tab KeyPair := []
  plat : Option KeyPair := none
  /-- RELEASE slots: slot 64-byte index, by partition: the decapsulation key and the SHAKE256 of its quote body (R418). -/
  release : Tab (List Byte × List Byte) := []
  /-- NONCE of the last QUOTE of this BOOT_EPOCH (R400). -/
  quoteNonce : Option (List Byte) := none
  /-- Open link offers by peer: the offer bytes and the decapsulation key (R411). -/
  linkOffers : Tab (List Byte × List Byte) := []
  links : Tab Link := []
  /-- Rotations by partition (R416). -/
  rotations : Tab Rotation := []
  /-- No crypto engine has failed its self-test: LOAD is refused otherwise (R473). -/
  bootLocked : Bool := false
  deriving DecidableEq, Repr

end Sys2Proof.Machine
end

