-- ==== Sys2Proof/Machine/State.lean ====
section
/-! DEFINITION. The whole state of the panel, the reasons a step could stop, and the state after reset. -/

namespace Sys2Proof.Machine

/-- Reasons a command could stop the machine. The manual stops none: every error has a response of its own (R13, R472). -/
inductive Fault where
  /-- Raised by nothing in this model; kept so that the type has a name to give. Safe. -/
  | none
  deriving DecidableEq, Repr

/-- Reasons for no meaning. -/
inductive Refusal where
  /-- The command of that mnemonic has no meaning yet: raised by its arm of exec. Safe. -/
  | notModelled (mnemonic : String)
  deriving DecidableEq, Repr

/-- The panel. -/
structure State where
  /-- Commands that wait, first in, first out: the model's own queue. -/
  pending : List Instr := []
  fuses : Fuses := {}
  /-- Rectangles of the partitions that exist, oldest first (R28, R29). -/
  geom : List Rect := []
  /-- Logical tiles by index y * 48 + x; an absent one is at its reset values. -/
  tiles : Tab TileState := []
  parts : Tab Part := []
  journal : Journal := {}
  mesh : MeshState := {}
  hbm : HbmState := {}
  trib : TribState := {}
  host : HostState := {}
  firm : FirmState := {}
  trust : TrustState := {}
  ent : EntropyState := {}
  err : ErrState := {}
  power : PowerState := {}
  clock : Clock := {}
  /-- Panel number (R366); none when unset. -/
  panelNo : Option (BitVec 16) := none
  /-- The value the last register read returned: the model's own output (log 19). -/
  readOut : Word := 0
  /-- The model's own counter of free values taken (log 20). -/
  free : Nat := 0
  /-- A device reset that the present command has called for; done at its end (R473). -/
  resetReq : Option Cause := none
  deriving DecidableEq, Repr

/-- The panel right after reset, before COLD_START: every register at the value its table gives, memories empty. -/
def State.reset : State := {}

end Sys2Proof.Machine
end

