-- ==== Sys2Proof/Machine/Grid.lean ====
section
/-! DEFINITION. The panel's geometry: dies, sites, physical and logical tiles, spares, partitions, ports and routes (chapters 1,
8 and 11). -/

namespace Sys2Proof.Machine

/-- Logical rows of a die (R22). -/
def Fuses.lrows (f : Fuses) : Nat := if f.gradeC then 11 else 12
/-- Rows of the logical grid. -/
def Fuses.rows (f : Fuses) : Nat := 6 * f.lrows

/-- Good tiles of a physical column of a die, by the tiles found bad at test (R23). -/
def Fuses.goodInColumn (f : Fuses) (die c : Nat) : Nat :=
  ((List.range 13).filter fun k => !(f.bad.contains ((die / 4 * 13 + k) * 48 + (die % 4 * 12 + c)))).length

/-- The fuses hold the grade that the test gave (R23): A with at least 12 good tiles in every die column, C with at least 11 in every one
and fewer than 12 in some. -/
def Fuses.graded (f : Fuses) : Bool :=
  let all := fun (n : Nat) => (List.range 24).all fun d => (List.range 12).all fun c => decide (n ≤ f.goodInColumn d c)
  if f.gradeC then all 11 && !(all 12) else all 12

/-- Index of a physical tile or router. -/
def physIx (px py : Nat) : Nat := py * 48 + px
/-- Die of a physical position (R15). -/
def dieAt (px py : Nat) : Nat := (py / 13) * 4 + px / 12
/-- Index of a logical tile. -/
def tileIx (x y : Nat) : Nat := y * 48 + x

/-- Value of a persistent register (R392); an unwritten one reads 0. -/
def State.preg (s : State) (n : Nat) : PReg := s.firm.pregs.getD n {}

/-- The entries of the repair list that have been written (Table 17-10): two to a register, 152 to 255. -/
def State.repairList (s : State) : List (BitVec 32) :=
  s.firm.pregs.flatMap fun e =>
    if 152 ≤ e.1 ∧ e.1 < 256 then [BitVec.extractLsb' 0 32 e.2.value, BitVec.extractLsb' 32 32 e.2.value] else []

/-- Repairs in force: the list and those of the current BOOT_EPOCH (R483, R484). -/
def State.repairs (s : State) : List (BitVec 32) := (s.repairList.filter fun e => decide (e ≠ 0)) ++ s.err.epochRepairs

/-- A repair-list entry (Table 17-10). -/
def repairEntry (kind where_ : Nat) : BitVec 32 := BitVec.ofNat 32 (kind * 2 ^ 28 + where_ % 2 ^ 21)

/-- The TILE entry of a physical tile (Table 17-10). -/
def tileEntry (px py : Nat) : BitVec 32 := repairEntry 1 (dieAt px py * 256 + (px % 12) * 16 + py % 13)

/-- enabled of R22: good at test and not retired. -/
def State.enabled (s : State) (px py : Nat) : Bool :=
  !(s.fuses.bad.contains (physIx px py)) && !(s.repairs.contains (tileEntry px py))

/-- The local physical row of local logical row j in a die column, scanning rows k and up (R22). -/
def scanColumn (en : Nat → Bool) (j : Nat) : Nat → Nat → Option Nat
  | 0, _ => none
  | n + 1, seen =>
    let k := 12 - n
    if en k then (if seen = j then some k else scanColumn en j n (seen + 1)) else scanColumn en j n seen

/-- logical_to_phys of R22 under a map of enabled tiles: the physical position. -/
def placeTile (lrows : Nat) (en : Nat → Nat → Bool) (x y : Nat) : Option (Nat × Nat) :=
  (scanColumn (fun k => en x (y / lrows * 13 + k)) (y % lrows) 13 0).map fun k => (x, y / lrows * 13 + k)

/-- Die of a logical tile. -/
def Fuses.dieOf (f : Fuses) (t : Nat) : Nat := (t / 48 / f.lrows) * 4 + t % 48 / 12

/-- Sites of a die, western and eastern (Table 1-1). -/
def dieSites (d : Nat) : Nat × Nat :=
  let r := d / 4
  let c := d % 4
  if r = 0 then (2 * c, 2 * c + 1)
  else if r = 5 then (32 + 2 * c, 33 + 2 * c)
  else
    let base := 8 + 6 * (r - 1)
    if c = 0 then (38 + 2 * r, base) else if c = 3 then (base + 5, 39 + 2 * r) else (base + 2 * c - 1, base + 2 * c)

/-- Whether a site holds a stack in a build (R17). -/
def Fuses.hasStack (f : Fuses) (site : Nat) : Bool :=
  decide (site < 40) || (decide (site < 48) && (decide (f.build = 0) || (decide (f.build = 1) && decide (44 ≤ site))))

/-- Whether a parity group exists in a build (R230). -/
def Fuses.hasGroup (f : Fuses) (g : Nat) : Bool := decide (g < 5) || (decide (g = 5) && decide (f.build = 0))

/-- Edge I/O dies of a build (R17). -/
def Fuses.edgeDies (f : Fuses) : Nat := if f.build = 0 then 0 else if f.build = 1 then 4 else 8

/-- Whether a build has a port (Tables 11-1 and 12-9). -/
def Fuses.hasPort (f : Fuses) (id : Nat) : Bool :=
  decide (id < 0x18) || (decide (0x20 ≤ id) && decide (id < 0x20 + 4 * f.edgeDies))

/-- Line rate of a port in Gbit/s (Table 11-1). -/
def portRate (id : Nat) : Nat := if id < 0x18 then 400 else 800

/-- Place of a port among the 56 of PORT_CFG, Pn before Ek.j (Table 13-13). -/
def portIx (id : Nat) : Nat := if id < 0x18 then id else id - 8

/-- The router a port attaches to for barriers (R19, R307). -/
def portRouter (id : Nat) : Nat × Nat :=
  if id < 0x18 then ((id % 4) * 12 + 6, (id / 4) * 13 + 6)
  else
    let k := (id - 0x20) / 4
    (if k % 2 = 0 then 0 else 47, (1 + k / 2) * 13 + 6)

/-- The router at which a block of port traffic enters or leaves the mesh: row 6 of the die for Pn (R19), and for Ek the local row
(block address >> 8) mod 12 of the outer edge (R18, R220). -/
def portAttach (id addr : Nat) : Nat × Nat :=
  if id < 0x18 then portRouter id
  else
    let k := (id - 0x20) / 4
    (if k % 2 = 0 then 0 else 47, (1 + k / 2) * 13 + addr / 256 % 12)

/-- A die row that holds edge I/O dies, by build (R221). -/
def edgeRow (build row : Nat) : Bool :=
  (decide (build = 1) && decide (1 ≤ row ∧ row ≤ 2)) || (decide (build = 2) && decide (1 ≤ row ∧ row ≤ 4))

/-- VC3_SHARE of a router (Tables 8-7 and 8-9). -/
def shareCode (build y : Nat) : Nat :=
  if y % 13 = 6 then (if edgeRow build (y / 13) then 3 else 2)
  else if y % 13 ≤ 11 ∧ edgeRow build (y / 13) then 2 else 1

/-- BUILD and GRADE codes (Table 12-5). -/
def Fuses.gradeCode (f : Fuses) : Nat := if f.gradeC then 1 else 0

/-- The tiles of a rectangle, row by row from the origin. -/
def Rect.tiles (r : Rect) : List Nat :=
  (List.range r.h).flatMap fun j => (List.range r.w).map fun i => tileIx (r.x0 + i) (r.y0 + j)

def Rect.has (r : Rect) (t : Nat) : Bool :=
  decide (r.x0 ≤ t % 48) && decide (t % 48 < r.x0 + r.w) && decide (r.y0 ≤ t / 48) && decide (t / 48 < r.y0 + r.h)

/-- Census code (Table 1-3). -/
def Rect.census (r : Rect) : Nat := r.w * 65536 + r.h

/-- Two rectangles share a tile. -/
def Rect.overlaps (a b : Rect) : Bool :=
  decide (a.x0 < b.x0 + b.w) && decide (b.x0 < a.x0 + a.w) && decide (a.y0 < b.y0 + b.h) && decide (b.y0 < a.y0 + a.h)

/-- The conditions of R28. -/
def Rect.shapeOk (r : Rect) (rows : Nat) : Bool :=
  decide (r.x0 % 4 = 0) && decide (r.y0 % 4 = 0) && decide (r.w % 4 = 0) && (decide (r.h % 4 = 0) || decide (r.y0 + r.h = rows)) &&
    decide (4 ≤ r.w) && decide (2 ≤ r.h) && decide (r.x0 + r.w ≤ 48) && decide (r.y0 + r.h ≤ rows)

def State.rect (s : State) (p : Nat) : Option Rect := s.geom.find? fun r => decide (r.part = p)

/-- The partition a logical tile belongs to, 0 for none (R28, R29). -/
def State.ownerOf (s : State) (t : Nat) : Nat :=
  match s.geom.find? fun r => r.has t with
  | some r => r.part
  | none => 0

/-- The tiles of a partition. -/
def State.tilesOf (s : State) (p : Nat) : List Nat :=
  match s.rect p with
  | some r => r.tiles
  | none => []

/-- enabled of R22 as it is in force for a partition: a retirement that came within its running job is not yet (R25). -/
def State.enabledFor (s : State) (p px py : Nat) : Bool :=
  s.enabled px py ||
    (!(s.fuses.bad.contains (physIx px py)) && s.err.lag.any fun e => decide (e.1 = p) && decide (e.2 = tileEntry px py))

/-- The physical tile of a logical tile (R22), by the map in force for its partition (R25). -/
def State.place (s : State) (x y : Nat) : Option (Nat × Nat) := placeTile s.fuses.lrows (s.enabledFor (s.ownerOf (tileIx x y))) x y

/-- The logical tile that a physical tile holds. -/
def State.logicalAt (s : State) (px py : Nat) : Option Nat :=
  ((List.range s.fuses.lrows).map fun j => py / 13 * s.fuses.lrows + j).find?
    (fun y => decide (s.place px y = some (px, py))) |>.map fun y => tileIx px y

/-- Census code of a partition; 0 when it does not exist (Table 1-3). -/
def State.census (s : State) (p : Nat) : Nat :=
  match s.rect p with
  | some r => r.census
  | none => 0

/-- Index of a tile within its rectangle (Table 12-18). -/
def Rect.indexOf (r : Rect) (t : Nat) : Nat := (t / 48 - r.y0) * r.w + (t % 48 - r.x0)

/-- The partition that the tile of a router belongs to. -/
def State.partAt (s : State) (px py : Nat) : Nat :=
  match s.logicalAt px py with
  | some t => s.ownerOf t
  | none => 0

/-- A tile's units other than its router are stopped: gated (R449), fused off or not the place of a logical tile (R21), or outside every
partition (R31). A SELFTEST, a CALIBRATE or an injection that names such a tile starts the clocks of the units it tests and stops them again
within its command (R31, R491). -/
def State.unitsOff (s : State) (px py : Nat) : Bool :=
  s.power.gated.contains (physIx px py) || s.fuses.bad.contains (physIx px py) || !((s.logicalAt px py).isSome) || decide (s.partAt px py = 0)

/-- The partition of the nearest tile in a column from a row on, going down n rows or up n rows. -/
def State.nearBelow (s : State) (px : Nat) : Nat → Nat
  | 0 => 0
  | n + 1 => if (s.logicalAt px n).isSome then s.partAt px n else s.nearBelow px n
def State.nearAbove (s : State) (px : Nat) : Nat → Nat → Nat
  | 0, _ => 0
  | n + 1, py => if (s.logicalAt px py).isSome then s.partAt px py else s.nearAbove px n (py + 1)

/-- The partition on whose side of the fences a router stands (R217): that of its tile; a router whose tile holds no logical tile, because it is
spare, retired or fused off, stands within a partition when the next tiles below and above it in its column are both of that partition, since
its paths run through such routers (R216, R511; DEDUCED, log 123). -/
def State.regionAt (s : State) (px py : Nat) : Nat :=
  if (s.logicalAt px py).isSome then s.partAt px py
  else
    let p := s.nearBelow px py
    if s.nearAbove px (78 - py - 1) (py + 1) = p then p else 0

/-- Number of a stitch link by its lower-numbered side (R336). -/
def linkEW (px py : Nat) : Nat := 12 * (20 + 3 * (py / 13) + px / 12) + py % 13
def linkNS (px py : Nat) : Nat := 12 * dieAt px py + px % 12

def State.linkDown (s : State) (n : Nat) : Bool := (s.mesh.links.getD n {}).disabled

/-- The horizontal step of route(): at a die edge round local row 12 and round a link that is down (R202, R215). -/
def State.routeEW (s : State) (x y dx : Nat) : Out :=
  let east := decide (x < dx)
  let nx := if east then x + 1 else x - 1
  let edge := decide (nx / 12 ≠ x / 12)
  if edge && decide (y % 13 = 12) then .south
  else if edge && s.linkDown (linkEW (min x nx) y) then (if y % 13 = 0 then .north else .south)
  else if east then .east else .west

/-- The vertical step of route(): at a die edge round a link that is down (R202, R215). -/
def State.routeNS (s : State) (x y dy : Nat) : Out :=
  let north := decide (y < dy)
  let ny := if north then y + 1 else y - 1
  if decide (ny / 13 ≠ y / 13) && s.linkDown (linkNS x (min y ny)) then (if x % 12 = 11 then .west else .east)
  else if north then .north else .south

/-- route() of R202 at one router. -/
def State.route (s : State) (x y dx dy : Nat) : Out :=
  if x = dx ∧ y = dy then .here
  else if x ≠ dx then s.routeEW x y dx
  else s.routeNS x y dy

/-- route() for a flit that came over an output: one that has just left its destination's column round a link that is down crosses the die edge
on the neighbouring link before it returns, as R215 says; route() alone would send it straight back (DEDUCED, log 124). -/
def State.routeFrom (s : State) (last : Out) (x y dx dy : Nat) : Out :=
  if ((last = .east ∧ dx < x) ∨ (last = .west ∧ x < dx)) ∧ y ≠ dy then s.routeNS x y dy else s.route x y dx dy

/-- Port traffic routes vertically first and horizontally last (R220); one that has left the destination's row round a link that is down goes on
along the row it came to. -/
def State.routePort (s : State) (last : Out) (x y dx dy : Nat) : Out :=
  if x = dx ∧ y = dy then .here
  else if y = dy ∨ (x ≠ dx ∧ ((last = .north ∧ dy < y) ∨ (last = .south ∧ y < dy))) then s.routeEW x y dx
  else s.routeNS x y dy

/-- The router on the other side of an output. -/
def Out.step (o : Out) (x y : Nat) : Nat × Nat :=
  match o with
  | .here => (x, y)
  | .north => (x, y + 1)
  | .south => (x, y - 1)
  | .east => (x + 1, y)
  | .west => (x - 1, y)

/-- Hops of the route from one router to another, at most n (R215). -/
def State.hops (s : State) : Nat → Out → Nat → Nat → Nat → Nat → Nat
  | 0, _, _, _, _, _ => 0
  | n + 1, last, x, y, dx, dy =>
    match s.routeFrom last x y dx dy with
    | .here => 0
    | o => 1 + s.hops n o (o.step x y).1 (o.step x y).2 dx dy

/-- The same panel with every tile enabled and every stitch link working: the fault-free map of R215. -/
def State.faultFree (s : State) : State := { s with mesh := { s.mesh with links := [] } }

/-- Detour of the path between two logical neighbours (R215); none when a tile has no place. -/
def State.detour (s : State) (a b : Nat) : Option Nat :=
  match s.place (a % 48) (a / 48), s.place (b % 48) (b / 48) with
  | some p, some q =>
    let free := placeTile s.fuses.lrows (fun _ _ => true)
    match free (a % 48) (a / 48), free (b % 48) (b / 48) with
    | some p0, some q0 => some (s.hops 256 .here p.1 p.2 q.1 q.2 - s.faultFree.hops 256 .here p0.1 p0.2 q0.1 q0.2)
    | _, _ => none
  | _, _ => none

/-- Both directions of a neighbour path keep the detour budget of 2 hops (R216). -/
def State.pathOk (s : State) (a b : Nat) : Bool :=
  match s.detour a b, s.detour b a with
  | some m, some n => decide (m ≤ 2) && decide (n ≤ 2)
  | _, _ => false

/-- Whether a logical tile has a place and its die is not withdrawn (R26, Table 17-9). -/
def State.tileOk (s : State) (t : Nat) : Bool :=
  (s.place (t % 48) (t / 48)).isSome && !(s.err.withdrawn.contains (s.fuses.dieOf t))

/-- South-west tile of the quad of a tile (R336). -/
def quadOf (t : Nat) : Nat := (t / 48 / 4) * 12 + t % 48 / 4

/-- Tiles of quad i on a grid of so many rows. -/
def quadTiles (rows i : Nat) : List Nat :=
  ((List.range 4).flatMap fun j => (List.range 4).map fun k => (4 * (i % 12) + k, 4 * (i / 12) + j)).filterMap
    fun p => if p.2 < rows then some (tileIx p.1 p.2) else none

/-- The neighbour paths that leave a tile to the east and to the north, on the grid. -/
def eastNorth (rows t : Nat) : List Nat :=
  (if t % 48 + 1 < 48 then [t + 1] else []) ++ (if t / 48 + 1 < rows then [t + 48] else [])

/-- A quad is unavailable: a tile of it has no place (R26), its die is withdrawn, or a path between logical neighbours inside
one rectangle that ends in it breaks the budget (R216). -/
def State.quadDown (s : State) (inside : Nat → Bool) (i : Nat) : Bool :=
  let ts := quadTiles s.fuses.rows i
  !(ts.all s.tileOk) ||
    !(ts.all fun t => (eastNorth s.fuses.rows t).all fun n => !(inside t && inside n) || s.pathOk t n) ||
    !(ts.all fun t => (((if t % 48 = 0 then [] else [t - 1]) ++ (if t < 48 then [] else [t - 48])).all
      fun n => !(inside t && inside n) || s.pathOk n t))

/-- The quads a rectangle covers. -/
def Rect.quads (r : Rect) : List Nat :=
  (List.range ((r.h + 3) / 4)).flatMap fun j => (List.range (r.w / 4)).map fun i => (r.y0 / 4 + j) * 12 + r.x0 / 4 + i

/-- Whether a rectangle covers an unavailable quad (R26, R29, R216). -/
def State.rectDown (s : State) (r : Rect) : Bool := r.quads.any (s.quadDown r.has)

end Sys2Proof.Machine
end

