-- ==== Sys2Proof/Machine/Keccak.lean ====
section
/-! DEFINITION. SHAKE256 and KMAC256, the digest and the keyed digest that the manual names (R256, R320, R410). The manual
names the functions and the standards define them: PRESUMED from FIPS 202 and SP 800-185 (log 30). -/

namespace Sys2Proof.Machine

/-- The round constants of Keccak-f[1600]. -/
def keccakRc : List Word :=
  [0x0000000000000001, 0x0000000000008082, 0x800000000000808A, 0x8000000080008000,
   0x000000000000808B, 0x0000000080000001, 0x8000000080008081, 0x8000000000008009,
   0x000000000000008A, 0x0000000000000088, 0x0000000080008009, 0x000000008000000A] ++
  [0x000000008000808B, 0x800000000000008B, 0x8000000000008089, 0x8000000000008003,
   0x8000000000008002, 0x8000000000000080, 0x000000000000800A, 0x800000008000000A,
   0x8000000080008081, 0x8000000000008080, 0x0000000080000001, 0x8000000080008008]

/-- The rotation of lane x + 5 y. -/
def keccakRot : List Nat :=
  [0, 1, 62, 28, 27, 36, 44, 6, 55, 20, 3, 10, 43, 25, 39, 41, 45, 15, 21, 8, 18, 2, 61, 56, 14]

/-- One lane of a 25-lane state. -/
def lane (a : List Word) (i : Nat) : Word := a.getD i 0

/-- One round of Keccak-f[1600]. -/
def keccakRound (a : List Word) (rc : Word) : List Word :=
  let c := (List.range 5).map fun x =>
    lane a x ^^^ lane a (x + 5) ^^^ lane a (x + 10) ^^^ lane a (x + 15) ^^^ lane a (x + 20)
  let d := (List.range 5).map fun x => lane c ((x + 4) % 5) ^^^ (lane c ((x + 1) % 5)).rotateLeft 1
  let t := (List.range 25).map fun i => lane a i ^^^ lane d (i % 5)
  -- Lane (x, y) moves to (y, 2 x + 3 y); the source of target (u, v) has y = u and 2 x = v - 3 u modulo 5.
  let b := (List.range 25).map fun i =>
    let u := i % 5
    let v := i / 5
    let j := (3 * (v + 2 * u)) % 5 + 5 * u
    (lane t j).rotateLeft (keccakRot.getD j 0)
  let e := (List.range 25).map fun i =>
    let y := 5 * (i / 5)
    let x := i % 5
    lane b i ^^^ (~~~ lane b (y + (x + 1) % 5) &&& lane b (y + (x + 2) % 5))
  match e with
  | [] => []
  | h :: t => (h ^^^ rc) :: t

/-- Keccak-f[1600]. -/
def keccakF (a : List Word) : List Word := keccakRc.foldl keccakRound a

/-- The words of a byte string, little-endian, n of them. -/
def wordsOf : Nat → List Byte → List Word
  | 0, _ => []
  | n + 1, bs => BitVec.ofNat 64 (leNat (bs.take 8)) :: wordsOf n (bs.drop 8)

/-- The padding of a message to the 136-byte rate with a domain byte. -/
def spongePad (domain : Byte) (m : List Byte) : List Byte :=
  let z := 136 - m.length % 136
  if z = 1 then m ++ [domain ||| 0x80]
  else m ++ [domain] ++ List.replicate (z - 2) 0 ++ [0x80]

/-- One 136-byte block taken into the state. -/
def spongeBlock (a : List Word) (block : List Byte) : List Word :=
  let w := wordsOf 17 block
  keccakF ((List.range 25).map fun i => lane a i ^^^ lane w i)

/-- All blocks taken in. -/
def spongeIn : Nat → List Word → List Byte → List Word
  | 0, a, _ => a
  | n + 1, a, m => spongeIn n (spongeBlock a (m.take 136)) (m.drop 136)

/-- The output blocks. -/
def spongeOut : Nat → List Word → List Byte
  | 0, _ => []
  | n + 1, a => (a.take 17).flatMap (fun w => leBytes 8 w.toNat) ++ spongeOut n (keccakF a)

/-- The sponge at rate 136 with a domain byte, n bytes out. -/
def sponge (domain : Byte) (m : List Byte) (n : Nat) : List Byte :=
  let p := spongePad domain m
  (spongeOut ((n + 135) / 136) (spongeIn (p.length / 136) (List.replicate 25 0) p)).take n

/-- SHAKE256 with n bytes of output. -/
def shake256 (m : List Byte) (n : Nat) : List Byte := sponge 0x1F m n

/-- The 256-bit SHAKE256 digest the manual uses throughout (R256). -/
def digest256 (m : List Byte) : List Byte := shake256 m 32

/-- How many bytes a length takes, at least one. -/
def lenBytes (x : Nat) : Nat := if x < 256 then 1 else if x < 65536 then 2 else if x < 16777216 then 3 else 8

/-- left_encode of SP 800-185. -/
def leftEncode (x : Nat) : List Byte := BitVec.ofNat 8 (lenBytes x) :: beBytes (lenBytes x) x

/-- right_encode of SP 800-185. -/
def rightEncode (x : Nat) : List Byte := beBytes (lenBytes x) x ++ [BitVec.ofNat 8 (lenBytes x)]

/-- encode_string of SP 800-185. -/
def encodeString (bs : List Byte) : List Byte := leftEncode (8 * bs.length) ++ bs

/-- bytepad of SP 800-185 at the rate of 136 bytes. -/
def bytePad (bs : List Byte) : List Byte :=
  let p := leftEncode 136 ++ bs
  p ++ List.replicate ((136 - p.length % 136) % 136) 0

/-- The ASCII bytes of a customisation string. -/
def asciiBytes (t : String) : List Byte := t.toList.map fun c => BitVec.ofNat 8 c.toNat

/-- KMAC256(key, message, n bytes, customisation). -/
def kmac256 (key msg : List Byte) (n : Nat) (custom : String) : List Byte :=
  sponge 0x04
    (bytePad (encodeString (asciiBytes "KMAC") ++ encodeString (asciiBytes custom)) ++ bytePad (encodeString key) ++ msg ++
      rightEncode (8 * n)) n

end Sys2Proof.Machine
end

