-- ==== Sys2Proof/Machine/Ops.lean ====
section
/-! DEFINITION. The named reads and updates of the state that every family uses: tiles, partitions, memories, registers, free
values, noise. -/

namespace Sys2Proof.Machine

/-- A state with the given fuses and rectangles: what a command may not change is put back by name (R23, R28). -/
def State.shaped (s : State) (f : Fuses) (g : List Rect) : State := { s with fuses := f, geom := g }

/-- A tile at its reset values. -/
def TileState.blank : TileState := {}

/-- A logical tile. -/
def State.tile (s : State) (t : Nat) : TileState := s.tiles.getD t TileState.blank

def State.setTile (s : State) (t : Nat) (x : TileState) : State := { s with tiles := s.tiles.set t x }

def State.updTile (s : State) (t : Nat) (f : TileState → TileState) : State := s.setTile t (f (s.tile t))

/-- Every tile of a list changed. -/
def State.updTiles (s : State) (ts : List Nat) (f : TileState → TileState) : State := ts.foldl (fun s t => s.updTile t f) s

def State.part (s : State) (p : Nat) : Option Part := s.parts.find p

def State.setPart (s : State) (p : Nat) (x : Part) : State := { s with parts := s.parts.set p x }

/-- A partition changed in place. -/
def State.updPart (s : State) (p : Nat) (f : Part → Part) : State := { s with parts := s.parts.update p f }

def State.updRun (s : State) (p : Nat) (f : RunJob → RunJob) : State :=
  s.updPart p fun x => { x with run := x.run.map f }

/-- The journal entry of a job. -/
def Journal.find (j : Journal) (id : BitVec 32) : Option Job := j.jobs.find? fun e => decide (e.id = id)

/-- An entry written, in both copies (R488). -/
def Journal.upd (j : Journal) (id : BitVec 32) (f : Job → Job) : Journal :=
  { j with jobs := j.jobs.map fun e => if e.id = id then { f e with bad0 := false, bad1 := false } else e }

/-- The journaled jobs of a partition that have no completion, in JOB_ID order (R340). -/
def Journal.queue (j : Journal) (p : Nat) : List Job := j.jobs.filter fun e => decide (e.part = p) && decide (e.state = 0)

/-- The journal entry of the job that a partition runs. -/
def State.running (s : State) (p : Nat) : Option (RunJob × Job) :=
  match s.part p with
  | some x =>
    match x.run with
    | some r => (s.journal.find r.id).map fun j => (r, j)
    | none => none
  | none => none

/-- CANONICAL reduction of the running job (R92). -/
def State.canonical (s : State) (p : Nat) : Bool :=
  match s.running p with
  | some (_, j) => bit j.flags 1
  | none => false

/-- The Riffle seed in a tile's registers (R116). -/
def TileState.seed (x : TileState) : Nat := x.seedHi.toNat * 2 ^ 64 + x.seedLo.toNat

/-- MERIDIAN of a partition. -/
def State.meridian (s : State) (p : Nat) : Word :=
  match s.part p with
  | some x => x.meridian
  | none => 0

/-- Panel number as frames carry it: 0xFFFF when unset (Table 12-5). -/
def State.panel (s : State) : Nat :=
  match s.panelNo with
  | some n => n.toNat
  | none => 0xFFFF

/-- A persistent register written in both copies: WCOUNT rises by one, a worn register keeps its value (R392, R394, R488). -/
def State.pregWrite (s : State) (n : Nat) (v : Word) : State :=
  let r := s.preg n
  if 100000 ≤ r.wcount.toNat then s
  else { s with firm := { s.firm with pregs := s.firm.pregs.set n { value := v, wcount := r.wcount + 1 } } }

/-- Whether a persistent register is worn (R394). -/
def PReg.worn (r : PReg) : Bool := decide (100000 ≤ r.wcount.toNat)

/-- BOOT_EPOCH: the largest value of registers 16-23 (Table 13-13). -/
def State.bootEpoch (s : State) : Nat := (List.range 8).foldl (fun m i => max m (s.preg (16 + i)).value.toNat) 0

/-- Life-cycle state: ROT_STATE register 0 (R399). -/
def State.lifeCycle (s : State) : Nat := (s.preg 0).value.toNat

/-- A value the manual leaves open, and the count advanced (log 20). -/
def State.takeFree (s : State) : Word × State := (Config.freeWord s.free, { s with free := s.free + 1 })

/-- FP_STATUS flags added to a tile (R54). -/
def TileState.flag (x : TileState) (g : Flags) : TileState := { x with fp := x.fp ||| g.toBits }

/-- Writes to a tile's SRAM. -/
def TileState.store (x : TileState) (ws : List (Nat × List Byte)) : TileState := { x with sram := x.sram.writeAll ws }

/-- LOCAL_TS of a domain at a die (R447). -/
def State.localTs (s : State) (domain die : Nat) : Nat :=
  if domain = 0 then s.clock.ref
  else s.clock.dom.getD (64 * domain + (if domain ∈ [6, 7, 8, 13, 23] then die else 0)) 0

/-! ## Noise and the expander (R430-R433) -/

/-- n bytes of raw noise from the source. -/
def EntropyState.raw (e : EntropyState) (n : Nat) : List Byte × EntropyState :=
  ((List.range n).map fun k => Config.noiseByte (e.drawn + k), { e with drawn := e.drawn + n })

/-- One bit taken by the conditioner (R430). -/
def condBit (r : BitVec 256) (b : Bool) : BitVec 256 := (r <<< 1) ^^^ (if xor (r.getLsbD 255) b then 0x425 else 0)

/-- condition() of R430 over a block of raw bits. -/
def condition (raw : List Bool) : BitVec 256 := raw.foldl condBit 0

/-- The bits of raw bytes, each byte's first-taken bit lowest. -/
def rawBits (bs : List Byte) : List Bool := bs.flatMap fun b => (List.range 8).map fun i => b.getLsbD i

/-- One conditioned block from the source in use: L is 768 for Headwater and 1,536 for the pool (Table 15-1). -/
def EntropyState.block (e : EntropyState) : List Byte × EntropyState :=
  let r := e.raw (if e.source then 192 else 96)
  (leBytes 32 (condition (rawBits r.1)).toNat, r.2)

/-- exp_seed with two fresh blocks (R432). -/
def EntropyState.seed (e : EntropyState) : EntropyState :=
  let a := e.block
  let b := a.2.block
  { b.2 with key := shake256 (asciiBytes "ZM1-HW-SEED" ++ e.key ++ a.1 ++ b.1) 64, ctr := 0, seeded := true,
             reseeds := if e.reseeds = 0xFFFF then e.reseeds else e.reseeds + 1 }

/-- exp_call (R432), reseeding first after 8,192 calls (R433). -/
def EntropyState.call (e : EntropyState) : List Byte × EntropyState :=
  let e := if 8192 ≤ e.ctr then e.seed else e
  let x := shake256 (asciiBytes "ZM1-HW-EXP" ++ e.key ++ leBytes 8 e.ctr) 192
  (x.drop 64, { e with key := x.take 64, ctr := e.ctr + 1, sinceKat := e.sinceKat + 1 })

/-- n calls. -/
def EntropyState.calls : Nat → EntropyState → List Byte × EntropyState
  | 0, e => ([], e)
  | n + 1, e =>
    let r := e.call
    let t := EntropyState.calls n r.2
    (r.1 ++ t.1, t.2)

/-- n bytes of expander output. -/
def EntropyState.output (e : EntropyState) (n : Nat) : List Byte × EntropyState :=
  let r := EntropyState.calls ((n + 127) / 128) e
  (r.1.take n, r.2)

/-- A draw of n bytes by classes 1-3: from a state seeded after the request (R433). -/
def State.drawFresh (s : State) (n : Nat) : List Byte × State :=
  let r := s.ent.seed.output n
  (r.1, { s with ent := r.2 })

/-- A draw of n bytes by classes 4-6. -/
def State.drawPlain (s : State) (n : Nat) : List Byte × State :=
  let r := s.ent.output n
  (r.1, { s with ent := r.2 })

/-- A fresh XTS key pair with K1 and K2 different: the draw is repeated when they agree (R414). -/
def State.drawKeyPair (s : State) : KeyPair × State :=
  let a := s.drawFresh 64
  if a.1.take 32 = a.1.drop 32 then a.2.drawFresh 64 else a

end Sys2Proof.Machine
end

