-- ==== Sys2Proof/Machine/Flags.lean ====
section
/-! DEFINITION. Status codes, detector classes and domains, and the registers that are computed from state: PWR_STATUS, DIE_PWR,
SPILLWAY, HW_STATUS, HW_POOL, ROUTER_COUNT, FERRY_STATUS, RIFFLE_STATUS, SEQ_STATUS, SEQ_PROGRESS, DRAW_PROGRESS. -/

namespace Sys2Proof.Machine

/-- Status codes (Table 12-3a). -/
inductive Status where
  | ok | busy | notReady | refused | badFormat | noFeature | auth | worn | shapeChanged | dataLoss | preempted | aborted
  | peerLost | entropyFail | limit | deferred
  deriving DecidableEq, Repr

/-- Encoding of a status (Table 12-3a). -/
def Status.code : Status → Nat
  | .ok => 0 | .busy => 1 | .notReady => 2 | .refused => 3 | .badFormat => 4 | .noFeature => 5 | .auth => 6 | .worn => 7
  | .shapeChanged => 8 | .dataLoss => 9 | .preempted => 10 | .aborted => 11 | .peerLost => 12 | .entropyFail => 13
  | .limit => 14 | .deferred => 15

/-- Class of a detector (Tables 5-10, 6-18, 7-12, 8-11, 9-14, 10-10, 11-11, 12-14, 13-14, 14-11, 15-7, 16-11, 17-2): 0
CORRECTED, 1 RETRIED, 2 CONTAINED, 3 PARTITION_FATAL, 4 DEVICE_FATAL. Where a table gives two classes, the raiser of the graver
one names it. -/
def detClass (det : Nat) : Nat :=
  if det ∈ [0x0301, 0x0401, 0x0404, 0x0501, 0x0503, 0x0505, 0x0507, 0x0602, 0x0604, 0x0808, 0x0A05, 0x0A06, 0x0B04, 0x0C02,
            0x0C06, 0x0D10, 0x0D11, 0x0E01, 0x0E03, 0x0E05, 0x0E06, 0x0E07, 0x0E0A, 0x0F01] then 0
  else if det ∈ [0x0403, 0x0A03, 0x0B03] then 1
  else if det ∈ [0x0101, 0x0102, 0x0103, 0x0201, 0x0202, 0x0220, 0x0221, 0x0302, 0x0303, 0x0402, 0x0411, 0x0502, 0x0506, 0x0603,
                 0x0605, 0x0701, 0x0702, 0x0703, 0x0704, 0x0901, 0x0902, 0x0905, 0x0906, 0x0A08, 0x0D01, 0x0D07, 0x0E08] then 3
  else if det ∈ [0x0504, 0x0D05, 0x0D06, 0x0D12, 0x0E02, 0x0E04, 0x0E09, 0x0E0B] then 4
  else 2

/-- Domain position of a detector (Table 17-15, Table 16-2). -/
def detDomain (det : Nat) : Nat :=
  if det / 256 = 1 then 6
  else if det / 256 = 2 then 7
  else if det / 256 = 3 then (if det = 0x0303 then 9 else 8)
  else if det / 256 = 4 then (if det = 0x0403 ∨ det = 0x0404 then 10 else 9)
  else if det / 256 = 5 then 11
  else if det / 256 = 6 then 13
  else if det / 256 = 7 then 6
  else if det / 256 = 8 then (if det = 0x0806 then 22 else 16)
  else if det / 256 = 9 then 6
  else if det / 256 = 0x0A then 18
  else if det / 256 = 0x0B then (if det = 0x0B05 then 3 else 4)
  else if det / 256 = 0x0C then (if det = 0x0C01 ∨ det = 0x0C07 then 1 else if det = 0x0C05 then 21 else 2)
  else if det / 256 = 0x0D then (if det ∈ [0x0D01, 0x0D03, 0x0D04, 0x0D06, 0x0D07] then 17 else 1)
  else if det / 256 = 0x0E then (if det = 0x0E06 ∨ det = 0x0E08 then 0 else 21)
  else if det / 256 = 0x0F then 1
  else if det = 0x1002 then 0 else 23

/-- The detectors the manual lists (Table 17-1 and the tables it names). -/
def detKnown (det : Nat) : Bool :=
  let i := det % 256
  match det / 256 with
  | 1 => decide (1 ≤ i ∧ i ≤ 3)
  | 2 => decide (1 ≤ i ∧ i ≤ 2) || decide (0x20 ≤ i ∧ i ≤ 0x22)
  | 3 => decide (1 ≤ i ∧ i ≤ 5)
  | 4 => decide (1 ≤ i ∧ i ≤ 4) || decide (6 ≤ i ∧ i ≤ 7) || decide (0x10 ≤ i ∧ i ≤ 0x12)
  | 5 => decide (1 ≤ i ∧ i ≤ 7)
  | 6 => decide (1 ≤ i ∧ i ≤ 5)
  | 7 => decide (1 ≤ i ∧ i ≤ 4)
  | 8 => decide (1 ≤ i ∧ i ≤ 8)
  | 9 => decide (1 ≤ i ∧ i ≤ 6)
  | 10 => decide (1 ≤ i ∧ i ≤ 8)
  | 11 => decide (1 ≤ i ∧ i ≤ 5)
  | 12 => decide (1 ≤ i ∧ i ≤ 7)
  | 13 => decide (1 ≤ i ∧ i ≤ 7) || decide (0x10 ≤ i ∧ i ≤ 0x12)
  | 14 => decide (1 ≤ i ∧ i ≤ 11)
  | 15 => decide (1 ≤ i ∧ i ≤ 4)
  | 16 => decide (1 ≤ i ∧ i ≤ 4)
  | _ => false

/-- Threshold and window of a detector (Table 17-8); none where it has no leaky counter. -/
def detThreshold (det : Nat) : Option (Nat × Nat) :=
  if det ∈ [0x0101, 0x0102, 0x0103, 0x0701, 0x0702, 0x0703, 0x0201, 0x0202, 0x0220] then some (2, 2 ^ 40)
  else if det = 0x0301 then some (16, 2 ^ 34)
  else if det = 0x0302 then some (2, 2 ^ 42)
  else if det = 0x0303 then some (2, 2 ^ 40)
  else if det = 0x0401 then some (64, 2 ^ 36)
  else if det = 0x0402 then some (2, 2 ^ 40)
  else if det = 0x0403 then some (32, 2 ^ 40)
  else if det = 0x0404 then some (3, 0)
  else if det = 0x0501 then some (4, 2 ^ 44)
  else if det = 0x0502 then some (1, 0)
  else if det = 0x0507 then some (8, 2 ^ 44)
  else if det = 0x0602 then some (8, 2 ^ 40)
  else if det = 0x0603 then some (2, 2 ^ 40)
  else if det ∈ [0x0801, 0x0802, 0x0803] then some (3, 3)
  else if det = 0x0A06 then some (8, 2 ^ 42)
  else if det = 0x0B04 then some (8, 2 ^ 42)
  else if det = 0x0D10 then some (16, 2 ^ 40)
  else if det = 0x0E06 then some (4096, 2 ^ 30)
  else if det = 0x0E08 then some (2, 2 ^ 36)
  else none

/-- The repair action of a lasting fault (Tables 17-8 and 17-9). -/
def detAction (det : Nat) : Nat :=
  if det ∈ [0x0101, 0x0102, 0x0103, 0x0701, 0x0702, 0x0703, 0x0201, 0x0202, 0x0220, 0x0301, 0x0302, 0x0303, 0x0401, 0x0402,
            0x0602, 0x0603] then 1
  else if det = 0x0403 then 2
  else if det = 0x0404 then 3
  else if det = 0x0501 then 4
  else if det = 0x0507 then 5
  else if det = 0x0502 then 6
  else if det = 0x0A06 then 8
  else if det = 0x0B04 then 9
  else if det ∈ [0x0801, 0x0802, 0x0803] then 10
  else if det = 0x0D10 then 11
  else if det = 0x0E06 then 12
  else if det = 0x0E08 then 13
  else 0

/-- A number held to a field width by saturation. -/
def sat (w n : Nat) : Nat := min n (2 ^ w - 1)

def bnat (b : Bool) : Nat := if b then 1 else 0

/-! ## Power registers -/

/-- Ephemeris bank check: CRC-64 of its registers 0-62 in little-endian bytes (R465). -/
def State.bankCheck (s : State) (base : Nat) : Word :=
  BitVec.ofNat 64 (crc64 0 ((List.range 63).flatMap fun i => leBytes 8 (s.preg (base + i)).value.toNat))

/-- A bank is valid (R465). -/
def State.bankValid (s : State) (base : Nat) : Bool :=
  decide (bits (s.preg base).value.toNat 31 16 = 1) && decide ((s.preg (base + 63)).value = s.bankCheck base)

def State.planNo (s : State) (base : Nat) : Nat := bits (s.preg base).value.toNat 63 32

/-- The bank in force: the valid one with the higher PLAN_NO (R465). -/
def State.planBank (s : State) : Option Nat :=
  if s.bankValid 256 then
    if s.bankValid 320 && decide (s.planNo 256 < s.planNo 320) then some 320 else some 256
  else if s.bankValid 320 then some 320 else none

/-- V_OFF, F_MAX and SLOW of a die under the plan in force; the fused plan has V_OFF 0 and F_MAX 200 (R465). -/
def State.plan (s : State) (die : Nat) : Nat × Nat × Nat :=
  match s.planBank with
  | some b =>
    let v := (s.preg (b + 1 + die)).value.toNat
    (bits v 63 56, bits v 55 48, bits v 47 24)
  | none => (0, 200, 0)

/-- A die at its reset values. -/
def DiePower.fresh : DiePower := {}

def State.diePower (s : State) (die : Nat) : DiePower := s.power.dies.getD die DiePower.fresh

def State.updDie (s : State) (die : Nat) (f : DiePower → DiePower) : State :=
  { s with power := { s.power with dies := s.power.dies.set die (f (s.diePower die)) } }

/-- The halving of R454. -/
def PowerState.halved (p : PowerState) : Bool := p.dip || p.hold || p.blade

/-- f_eff of R454 in MHz: f_req and F_MAX in units of 5 MHz. -/
def effClock (fReq fPlan : Nat) (tjClamp railClamp halved : Bool) : Rat :=
  let f : Rat := ((min fReq fPlan * 5 : Nat) : Rat)
  let f := if f < 1050 then f else 1050
  let f := if tjClamp then (if f < 250 then f else 250) else f
  let f := if railClamp then f * 7 / 8 else f
  if halved then f / 2 else f

/-- The effective tile clock of a die (R454). -/
def State.fEff (s : State) (die : Nat) : Rat :=
  let d := s.diePower die
  effClock d.fReq.toNat (s.plan die).2.1 d.tjClamp d.railClamp s.power.halved

def PowerState.clampDies (p : PowerState) : Nat :=
  p.dies.foldl (fun n e => if (e.2.tjClamp || e.2.railClamp) && decide (e.1 < 24) then n ||| 2 ^ e.1 else n) 0

def PowerState.tjAny (p : PowerState) : Bool := p.dies.any (fun e => e.2.tjClamp) || !p.hotDies.isEmpty
def PowerState.railAny (p : PowerState) : Bool := p.dies.any fun e => e.2.railClamp

/-- The emergency summary (R458). -/
def PowerState.emergency (p : PowerState) : Bool := p.dip || p.hold || p.blade || p.tjAny || p.railAny

/-- PWR_STATUS (Table 16-6). -/
def PowerState.status (p : PowerState) : Word :=
  BitVec.ofNat 64 (bnat p.emergency * 2 ^ 63 + bnat p.dip * 2 ^ 62 + bnat p.hold * 2 ^ 61 + bnat p.blade * 2 ^ 60 +
    bnat p.tjAny * 2 ^ 59 + bnat p.railAny * 2 ^ 58 + p.vin10mv.toNat * 2 ^ 40 + p.pin10w.toNat * 2 ^ 24 + p.clampDies)

/-- DIE_PWR (Table 16-7). -/
def State.diePwr (s : State) (die : Nat) : Word :=
  let d := s.diePower die
  BitVec.ofNat 64 (d.tj.toNat * 2 ^ 56 + sat 8 (s.fEff die / 5).floor.toNat * 2 ^ 48 + d.fReq.toNat * 2 ^ 40 + d.vtile.toNat * 2 ^ 28 +
    bnat d.tjClamp * 2 ^ 27 + bnat d.railClamp * 2 ^ 26 + bnat s.power.halved * 2 ^ 25 + bnat d.asleep * 2 ^ 24 +
    d.vOff.toNat * 2 ^ 16 + d.droopCnt.toNat)

/-! ## Error registers -/

/-- Instances that hold a count. -/
def ErrState.heldNow (e : ErrState) : Nat := (e.insts.filter fun d => decide (0 < d.held)).length

/-- SPILLWAY (Table 17-6). -/
def ErrState.spillway (e : ErrState) : Word :=
  BitVec.ofNat 64 (e.spillDetail.toNat * 2 ^ 24 + sat 12 e.heldNow * 2 ^ 12 + e.fullEpisodes.toNat * 2 ^ 4 + bnat e.resetDiscard * 8)

/-- Free entries of the ring (R476). -/
def ErrState.ringFree (e : ErrState) : Nat := 4096 - e.ring.length

/-- A record of class EC_PARTITION_FATAL or EC_DEVICE_FATAL, or of severity UNREPAIRABLE (R501). -/
def ErrRec.alerts (r : ErrRec) : Bool := decide (3 ≤ r.cls) || decide (r.sev = 3)

/-- Such a record stands in the ring unconsumed, or waits for an entry (R477, R501). -/
def ErrState.alerts (e : ErrState) : Bool :=
  e.ring.any ErrRec.alerts || e.waiting.any ErrRec.alerts || e.insts.any fun d => decide (0 < d.held) && (d.heldRec.any ErrRec.alerts)

/-- The level of ALERT_N (R501): low while a condition of R501 holds, and floating high while VAON is down. -/
def State.alertN (s : State) : Bool :=
  !s.power.auxUp || !(s.power.emergency || decide (s.firm.mode = .recovery) || s.err.alerts || decide (s.ent.state = .failed))

/-! ## Entropy registers -/

/-- HW_STATUS (Table 15-4). -/
def EntropyState.status (e : EntropyState) : Word :=
  BitVec.ofNat 64 (e.state.code * 2 ^ 60 + bnat e.source * 2 ^ 59 + e.lastTest.toNat * 2 ^ 56 + e.lastUnit.toNat * 2 ^ 51 +
    e.pairFail.toNat * 2 ^ 32 + e.pairEn.toNat * 2 ^ 16 + e.reseeds.toNat)

/-- HW_POOL (Table 15-5). -/
def EntropyState.pool (e : EntropyState) : Word := BitVec.ofNat 64 (e.sentFail.toNat * 2 ^ 24 + e.sentEn.toNat)

/-! ## Tile and mesh registers -/

/-- ROUTER_COUNT (Table 8-10). -/
def Router.count (r : Router) : Word :=
  BitVec.ofNat 64 (r.merges.toNat * 2 ^ 40 + r.unmerges.toNat * 2 ^ 16 + r.hwm.toNat)

/-- Descriptors in RUN or FAULT_WAIT (Table 9-3). -/
def Ferry.active (f : Ferry) : Nat := (f.slots.filter fun e => decide (e.2.phase = .run ∨ e.2.phase = .faultWait)).length

/-- FERRY_STATUS (Table 9-3). -/
def Ferry.status (f : Ferry) : Word :=
  BitVec.ofNat 64 (sat 16 f.flight1 * 2 ^ 48 + sat 16 f.flight0 * 2 ^ 32 + f.active * 2 ^ 24 + f.inflightMax * 2 ^ 16 + f.tlb.length)

/-- RIFFLE_STATUS in a cycle of the tile's clock (Table 5-9, R130). -/
def TileState.riffleStatus (x : TileState) (cycle : Nat) : BitVec 32 :=
  BitVec.ofNat 32 (bnat x.checkErr * 2 ^ 31 + bnat x.romErr * 2 ^ 30 + bnat x.katFail * 2 ^ 29 + (x.checkLane.toNat + cycle) % 64 * 2 ^ 16 +
    sat 13 x.riffleBuf.length)

/-- Words that a consumer has taken every item from leave the buffer, one copy of each (R126, R127). -/
def dropWords (need : RiffleWord → Bool) : List (BitVec 32 × Word) → List RiffleWord → List RiffleWord
  | _, [] => []
  | gone, r :: rs =>
    if need r && !(gone.contains (r.stream, r.index)) then dropWords need ((r.stream, r.index) :: gone) rs
    else r :: dropWords need gone rs

/-- A consumer has taken n items of width 2^lb of a stream from an index on (R126). -/
def TileState.useItems (stream base lb n : Nat) (x : TileState) : TileState :=
  { x with riffleBuf := dropWords (fun r => decide (r.stream.toNat = stream) && wordNeeded base n lb r.index.toNat) [] x.riffleBuf }

/-- SEQ_STATUS (Table 6-13). -/
def SeqState.status (q : SeqState) : Word :=
  let code := if q.waitEnd || q.traceWait then 4 else
    match q.phase with
    | .idle => 0 | .check => 1 | .prime => 2 | .run => 3 | .energy => 3 | .halt => 5 | .fault => 6
  BitVec.ofNat 64 (q.sweep % 2 ^ 32 * 2 ^ 32 + code * 2 ^ 28 + q.colour % 16 * 2 ^ 24 + q.entry % 4096 * 2 ^ 12 + bnat q.errFlag)

/-- SEQ_PROGRESS (Table 6-14). REPEAT_DONE counts the sweeps of the entry, or of a rotation run; after HALT those of the last entry
(log 24). -/
def SeqState.progress (q : SeqState) : Word :=
  let rot := match q.copy with
    | some c => c.ctl.rotate
    | none => false
  BitVec.ofNat 64 ((if rot then q.sweepsDone else q.rep) % 2 ^ 32 * 2 ^ 32 + q.traceWr % 2 ^ 16 * 2 ^ 16 + q.traceRd % 2 ^ 16)

/-- DRAW_PROGRESS (Table 7-11). -/
def TileState.drawProgress (x : TileState) : BitVec 32 := BitVec.ofNat 32 (bnat x.drawBusy * 2 ^ 31 + x.drawRows.toNat)

end Sys2Proof.Machine
end

