-- ==== Sys2Proof/Machine/Clock.lean ====
section
/-! DEFINITION. The idle tick: 16 microseconds in which every running clock counts and nothing else happens (R446, R447; log 10). -/

namespace Sys2Proof.Machine

/-- Cycles of a panel-wide domain in one tick, at its nominal clock (Table 16-2); a stopped domain counts none. -/
def State.tickCycles (s : State) (domain : Nat) : Nat :=
  let up := s.power.auxUp
  let out := up && !s.power.inReset
  let awake := out && !s.power.deepIdle
  let hostUp := s.host.ports.any fun e => e.2.up
  let tribUp := s.trib.ports.any fun e => e.2.up
  match domain with
  | 1 => if up then 8000 else 0
  | 2 => if out then 24000 else 0
  | 3 => if up then 20000 else 0
  | 4 => if hostUp then 21250 else 0
  | 5 => if hostUp then 850000 else 0
  | 9 => if awake then 16000 else 0
  | 10 => if awake then 256000 else 0
  | 11 => if awake then 19200 else 0
  | 12 => if awake then 76800 else 0
  | 14 => if s.ent.pairEn ≠ 0 && up then Config.ringCycles s.clock.life else 0
  | 15 => if s.ent.pairEn ≠ 0 && up then Config.ringCycles (s.clock.life + 1) else 0
  | 16 => if out then 16000 else 0
  | 17 => if out then 24000 else 0
  | 18 => if awake && tribUp then 21250 else 0
  | 19 => if awake && tribUp then 850000 else 0
  | 20 => if awake then 16000 else 0
  | 21 => if up then 8000 else 0
  | 22 => if up then 1600 else 0
  | _ => 0

/-- Cycles of a die's tile domains in one tick: f_eff of R454, none while the die sleeps. -/
def State.tickTile (s : State) (die : Nat) : Nat :=
  if s.power.inReset || s.power.deepIdle || (s.diePower die).asleep then 0 else (s.fEff die * 16).floor.toNat

/-- Every running domain counts (R447). -/
def State.tick (s : State) : State :=
  let ref := if s.power.refUp && s.power.auxUp then 400 else 0
  let one := (List.range 25).foldl (fun d k =>
    let n := s.tickCycles k
    if n = 0 then d else d.set (64 * k) (d.getD (64 * k) 0 + n)) s.clock.dom
  let all := (List.range 24).foldl (fun d die =>
    let n := s.tickTile die
    if n = 0 then d else [6, 7, 8, 13, 23].foldl (fun d k => d.set (64 * k + die) (d.getD (64 * k + die) 0 + n)) d) one
  { s with clock := { ref := s.clock.ref + ref, life := s.clock.life + ref, dom := all } }

end Sys2Proof.Machine
end

