-- ==== Sys2Proof/Machine/Aes.lean ====
section
/-! DEFINITION. AES-256-GCM, the authenticated encryption the manual names (R292, R410, R417), and AES-256-XTS, the cipher of HBM blocks and of
blocks on their way to a port (R414, R415). The manual names the functions and the standards define them: PRESUMED from FIPS 197,
SP 800-38D and SP 800-38E (log 30). -/

namespace Sys2Proof.Machine

/-- Multiplication by x in the field of AES. -/
def xtime (b : Nat) : Nat := if b < 128 then 2 * b else (2 * b - 256) ^^^ 0x1B

/-- Product in the field of AES, over the low n bits of the second factor. -/
def gmulBits : Nat → Nat → Nat → Nat
  | 0, _, _ => 0
  | n + 1, a, b => (if b % 2 = 1 then a else 0) ^^^ gmulBits n (xtime a) (b / 2)

/-- Product in the field of AES. -/
def gmul (a b : Nat) : Nat := gmulBits 8 a b

/-- The k-th power in the field of AES. -/
def gpow (a : Nat) : Nat → Nat
  | 0 => 1
  | k + 1 => gmul a (gpow a k)

/-- The S-box at one byte: inverse in the field, then the affine map. -/
def sboxAt (b : Nat) : Nat :=
  let b2 := gmul b b
  let b4 := gmul b2 b2
  let b8 := gmul b4 b4
  let b16 := gmul b8 b8
  let b32 := gmul b16 b16
  let b64 := gmul b32 b32
  let b128 := gmul b64 b64
  let v := gmul b2 (gmul b4 (gmul b8 (gmul b16 (gmul b32 (gmul b64 b128)))))
  let r := fun (k : Nat) => (v * 2 ^ k) % 256 + (v * 2 ^ k) / 256
  v ^^^ r 1 ^^^ r 2 ^^^ r 3 ^^^ r 4 ^^^ 0x63

/-- The S-box of AES. -/
def sbox : Array Nat := ((List.range 256).map sboxAt).toArray

/-- The S-box applied to a byte. -/
def subByte (b : Nat) : Nat := sbox.getD b 0

/-- The key words after the first eight, newest first, n more of them. -/
def expandKey : Nat → Nat → List (List Nat) → List (List Nat)
  | 0, _, ws => ws
  | n + 1, i, ws =>
    let prev := ws.getD 0 []
    let old := ws.getD 7 []
    let t :=
      if i % 8 = 0 then
        ((prev.drop 1 ++ prev.take 1).map subByte).zipWith (· ^^^ ·) [gpow 2 (i / 8 - 1), 0, 0, 0]
      else if i % 8 = 4 then prev.map subByte
      else prev
    expandKey n (i + 1) (old.zipWith (· ^^^ ·) t :: ws)

/-- A byte string cut into lists of k, n of them. -/
def chunksOf (k : Nat) : Nat → List Nat → List (List Nat)
  | 0, _ => []
  | n + 1, bs => bs.take k :: chunksOf k n (bs.drop k)

/-- The fifteen round keys of a 256-bit key. -/
def roundKeys (key : List Nat) : List (List Nat) :=
  let ws := (expandKey 52 8 (chunksOf 4 8 key).reverse).reverse
  (List.range 15).map fun r => (ws.drop (4 * r)).take 4 |>.flatten

/-- ShiftRows. -/
def shiftRows (b : List Nat) : List Nat := (List.range 16).map fun i => b.getD ((i + 4 * (i % 4)) % 16) 0

/-- MixColumns on one column. -/
def mixColumn (c : List Nat) : List Nat :=
  (List.range 4).map fun i =>
    xtime (c.getD i 0) ^^^ (xtime (c.getD ((i + 1) % 4) 0) ^^^ c.getD ((i + 1) % 4) 0) ^^^ c.getD ((i + 2) % 4) 0 ^^^
      c.getD ((i + 3) % 4) 0

/-- One AES block under expanded keys. -/
def aesBlock (rk : List (List Nat)) (b : List Nat) : List Nat :=
  let add := fun (x : List Nat) (k : List Nat) => x.zipWith (· ^^^ ·) k
  let b0 := add b (rk.getD 0 [])
  let mid := ((rk.drop 1).take 13).foldl
    (fun x k => add ((chunksOf 4 4 (shiftRows (x.map subByte))).flatMap mixColumn) k) b0
  add (shiftRows (mid.map subByte)) (rk.getD 14 [])

/-- The low n bytes of a number, least significant first. -/
def natBytesLe (n v : Nat) : List Nat := (List.range n).map fun i => v / 256 ^ i % 256

/-- The inverse S-box of AES. -/
def invSbox : Array Nat := ((List.range 256).map fun b => sbox.toList.findIdx (· == b)).toArray

/-- The inverse of ShiftRows. -/
def unshiftRows (b : List Nat) : List Nat := (List.range 16).map fun i => b.getD ((i + 12 * (i % 4)) % 16) 0

/-- The inverse of MixColumns on one column. -/
def unmixColumn (c : List Nat) : List Nat :=
  (List.range 4).map fun i =>
    gmul (c.getD i 0) 14 ^^^ gmul (c.getD ((i + 1) % 4) 0) 11 ^^^ gmul (c.getD ((i + 2) % 4) 0) 13 ^^^ gmul (c.getD ((i + 3) % 4) 0) 9

/-- The inverse of one AES block under expanded keys. -/
def aesUnblock (rk : List (List Nat)) (b : List Nat) : List Nat :=
  let add := fun (x : List Nat) (k : List Nat) => x.zipWith (· ^^^ ·) k
  let back := fun (x : List Nat) => (unshiftRows x).map fun v => invSbox.getD v 0
  let b0 := add b (rk.getD 14 [])
  let mid := ((rk.drop 1).take 13).reverse.foldl (fun x k => (chunksOf 4 4 (add (back x) k)).flatMap unmixColumn) b0
  add (back mid) (rk.getD 0 [])

/-- Multiplication of an XTS tweak by the primitive element. -/
def xtsNext (t : Nat) : Nat := (2 * t) % 2 ^ 128 ^^^ (if t / 2 ^ 127 = 1 then 0x87 else 0)

/-- n blocks of 16 bytes of an XTS data unit through a block function, from a tweak on. -/
def xtsRun (f : List Nat → List Nat) : Nat → Nat → List Byte → List Byte
  | 0, _, _ => []
  | n + 1, t, bs =>
    let k := natBytesLe 16 t
    ((f ((bs.take 16).map (·.toNat) |>.zipWith (· ^^^ ·) k)).zipWith (· ^^^ ·) k).map (BitVec.ofNat 8 ·) ++
      xtsRun f n (xtsNext t) (bs.drop 16)

/-- The first tweak of a data unit: its number, a 128-bit little-endian value, encrypted under K2 (R414). -/
def xtsTweak (key : List Byte) (unit : Nat) : Nat :=
  leNat ((aesBlock (roundKeys ((key.drop 32).map (·.toNat))) (natBytesLe 16 unit)).map (BitVec.ofNat 8 ·))

/-- AES-256-XTS encryption of a 256-byte data unit under a key pair (K1, K2) (R414). -/
def xtsSeal (key : List Byte) (unit : Nat) (bs : List Byte) : List Byte :=
  xtsRun (aesBlock (roundKeys ((key.take 32).map (·.toNat)))) 16 (xtsTweak key unit) bs

/-- Its decryption. -/
def xtsOpen (key : List Byte) (unit : Nat) (bs : List Byte) : List Byte :=
  xtsRun (aesUnblock (roundKeys ((key.take 32).map (·.toNat)))) 16 (xtsTweak key unit) bs

/-- Product in the field of GHASH, most significant bit first, over n more bits of x. -/
def ghashBits : Nat → Nat → Nat → Nat → Nat
  | 0, _, _, z => z
  | n + 1, x, v, z =>
    ghashBits n x (if v % 2 = 1 then v / 2 ^^^ 0xE1 <<< 120 else v / 2) (if x.testBit n then z ^^^ v else z)

/-- Product in the field of GHASH. -/
def ghashMul (x y : Nat) : Nat := ghashBits 128 x y 0

/-- GHASH over n blocks of 16 bytes. -/
def ghashRun (h : Nat) : Nat → Nat → List Byte → Nat
  | 0, y, _ => y
  | n + 1, y, bs => ghashRun h n (ghashMul (y ^^^ beNat (bs.take 16)) h) (bs.drop 16)

/-- Zero bytes up to a multiple of 16. -/
def pad16 (bs : List Byte) : List Byte := bs ++ List.replicate ((16 - bs.length % 16) % 16) 0

/-- The bytes of a block as numbers. -/
def natBytes (bs : List Byte) : List Nat := bs.map (·.toNat)

/-- The key stream over a byte string from a counter. -/
def ctrRun (rk : List (List Nat)) (iv : List Byte) : Nat → Nat → List Byte → List Byte
  | 0, _, _ => []
  | n + 1, c, bs =>
    let k := (aesBlock rk (natBytes (iv ++ beBytes 4 c))).map (BitVec.ofNat 8 ·)
    (bs.take 16).zipWith (· ^^^ ·) k ++ ctrRun rk iv n (c + 1) (bs.drop 16)

/-- The tag of a ciphertext. -/
def gcmTag (rk : List (List Nat)) (iv aad ct : List Byte) : List Byte :=
  let h := leNat (((aesBlock rk (List.replicate 16 0)).map (BitVec.ofNat 8 ·)).reverse)
  let m := pad16 aad ++ pad16 ct ++ beBytes 8 (8 * aad.length) ++ beBytes 8 (8 * ct.length)
  let y := ghashRun h (m.length / 16) 0 m
  let e := (aesBlock rk (natBytes (iv ++ beBytes 4 1))).map (BitVec.ofNat 8 ·)
  (beBytes 16 y).zipWith (· ^^^ ·) e

/-- AES-256-GCM sealing: the ciphertext and then its 16-byte tag. -/
def gcmSeal (key iv aad pt : List Byte) : List Byte :=
  let rk := roundKeys (natBytes key)
  let ct := ctrRun rk iv ((pt.length + 15) / 16) 2 pt
  ct ++ gcmTag rk iv aad ct

/-- AES-256-GCM opening: the plaintext, or nothing when the tag fails. -/
def gcmOpen (key iv aad box : List Byte) : Option (List Byte) :=
  if box.length < 16 then none
  else
    let rk := roundKeys (natBytes key)
    let ct := box.take (box.length - 16)
    if gcmTag rk iv aad ct = box.drop (box.length - 16) then
      some (ctrRun rk iv ((ct.length + 15) / 16) 2 ct)
    else none

end Sys2Proof.Machine
end

