-- ==== Sys2Proof/Machine/HbmOps.lean ====
section
/-! DEFINITION. Pages of a partition: table entries, frames, stripes with their parity, and bytes by virtual address (R226, R230-R236, R242,
R333, R414). -/

namespace Sys2Proof.Machine

/-- A level-2 entry of a partition (R236); an entry never written is the one PART_CREATE left (R333). -/
def Part.pte (x : Part) (vpn : Nat) : Word := x.ptes.getD vpn (if x.touch then BitVec.ofNat 64 (2 ^ 58) else 0)

def pteValid (e : Word) : Bool := e.getLsbD 63
def pteGen (e : Word) : Nat := if e.getLsbD 62 then 1 else 0
def ptePar (e : Word) : Bool := e.getLsbD 61
def pteWr (e : Word) : Bool := e.getLsbD 60
def pteLock (e : Word) : Bool := e.getLsbD 59
def pteTouch (e : Word) : Bool := e.getLsbD 58
/-- FRAME (Table 9-2). -/
def pteFrame (e : Word) : Nat := bits e.toNat 55 35
/-- Reserved bits of Table 9-2. -/
def pteReserved (e : Word) : Bool := decide (bits e.toNat 57 56 ≠ 0) || decide (bits e.toNat 34 0 ≠ 0)

/-- Reserved bits of a level-1 entry: all but V and the HPA of its table (R236). -/
def level1Reserved (e : Word) : Bool := decide (bits e.toNat 62 42 ≠ 0) || decide (bits e.toNat 13 0 ≠ 0)

/-- HPA of table j of a partition, 16 KiB each, 128 to a frame (R235). -/
def tableHpa (tables : List Nat) (j : Nat) : Nat := tables.getD (j / 128) 0 * 2 ^ 21 + j % 128 * 2 ^ 14

/-- Level-2 tables of a partition, and the frames that hold them behind its level-1 table (R235). -/
def tableCount (vaLimit : Nat) : Nat := (vaLimit + 2 ^ 32 - 1) / 2 ^ 32
def tableFrames (vaLimit : Nat) : Nat := (tableCount vaLimit + 1 + 127) / 128

/-- The level-1 table that PART_CREATE builds (R235, R236). -/
def firstLevel1 (vaLimit : Nat) (tables : List Nat) : Tab Word :=
  (List.range (tableCount vaLimit)).map fun i => (i, BitVec.ofNat 64 (2 ^ 63 + tableHpa tables (i + 1)))

/-- An entry from its fields. -/
def mkPte (valid : Bool) (gen : Nat) (par wr : Bool) (frame : Nat) : Word :=
  BitVec.ofNat 64 ((if valid then 2 ^ 63 else 0) + gen % 2 * 2 ^ 62 + (if par then 2 ^ 61 else 0) + (if wr then 2 ^ 60 else 0) +
    frame % 2 ^ 21 * 2 ^ 35)

/-- A bit of an entry set or cleared. -/
def pteSet (e : Word) (n : Nat) (b : Bool) : Word :=
  if b then e ||| BitVec.ofNat 64 (2 ^ n) else e &&& ~~~ BitVec.ofNat 64 (2 ^ n)

/-- HPA of a byte of a page: PAR = 0 by site and frame, PAR = 1 by data_member of R231. -/
def hpaOf (e : Word) (off : Nat) : Nat :=
  let f := pteFrame e
  if ptePar e then
    let r := off / 256
    let site := 8 * (f / 2 ^ 18) + (r % 8 + 1 + f / 2 ^ 15 % 8) % 8
    site * 2 ^ 36 + f % 2 ^ 15 * 2 ^ 21 + off
  else f * 2 ^ 21 + off

/-- The site a byte of a page lies at. -/
def siteOf (hpa : Nat) : Nat := hpa / 2 ^ 36

/-- FRAME names a site without a stack, or a group the build lacks (R236). -/
def State.frameBad (s : State) (e : Word) : Bool :=
  let f := pteFrame e
  if ptePar e then !(s.fuses.hasGroup (f / 2 ^ 18)) || decide (7 ≤ f / 2 ^ 15 % 8) else !(s.fuses.hasStack (f / 2 ^ 15))

/-- HPA of a virtual byte of a mapped page. -/
def Part.hpa (x : Part) (va : Nat) : Option Nat :=
  let e := x.pte (va / 2 ^ 21)
  if pteValid e && decide (va < x.vaLimit) then some (hpaOf e (va % 2 ^ 21)) else none

/-! ## Stripes (R231-R233) -/

/-- A stack is lost: its bit in every ferry's lost mask (R233). -/
def HbmState.lost (h : HbmState) (site : Nat) : Bool := (h.stackTab.getD site {}).lost

/-- HPA of a byte of a frame set's member: group, member, frame set and frame offset (R231). -/
def memberHpa (g member k off : Nat) : Nat := (8 * g + member) * 2 ^ 36 + k * 2 ^ 21 + off

/-- HPA of the parity byte over a byte of a parity page: parity_member of R231, at the same offset. -/
def parityHpa (e : Word) (off : Nat) : Nat := memberHpa (pteFrame e / 2 ^ 18) (off / 256 % 8) (pteFrame e % 2 ^ 15) off

/-- A byte of a member as the XOR of the other seven of its stripe (R233). -/
def rebuiltByte (g member k off : Nat) (m : Mem) : Byte :=
  (List.range 8).foldl (fun b i => if i = member then b else b ^^^ m.byte (memberHpa g i k off)) 0

/-- A byte of a page: read at its data member, or rebuilt by the stripe owner where that stack is lost (R232, R233). -/
def HbmState.pageByte (h : HbmState) (e : Word) (off : Nat) : Byte :=
  let a := hpaOf e off
  if ptePar e && h.lost (siteOf a) then rebuiltByte (siteOf a / 8) (siteOf a % 8) (pteFrame e % 2 ^ 15) off h.mem else h.mem.byte a

/-- Bytes of one block of a page written. The stripe owner of a parity page writes the new data and the parity P xor D xor D'; with the data
member lost it writes the parity only, with the parity member lost the data only (R232, R233). -/
def HbmState.pageWrite (h : HbmState) (e : Word) (off : Nat) (bs : List Byte) : HbmState :=
  let a := hpaOf e off
  if !(ptePar e) then { h with mem := h.mem.write a bs }
  else
    let q := parityHpa e off
    let ps := bs.mapIdx fun i b => h.mem.byte (q + i) ^^^ h.pageByte e (off + i) ^^^ b
    let m := if h.lost (siteOf q) then h.mem else h.mem.write q ps
    { h with mem := if h.lost (siteOf a) then m else m.write a bs }

/-- An HPA lies in a page's blocks. -/
def inPage (e : Word) (a : Nat) : Bool := decide (hpaOf e (a % 2 ^ 21) = a)

/-- The bytes of a page that are not zero: frame offset and value. -/
def HbmState.pageCells (h : HbmState) (e : Word) : List (Nat × Byte) :=
  if ptePar e && (List.range 8).any fun i => h.lost (8 * (pteFrame e / 2 ^ 18) + i) then
    ((List.range (2 ^ 21)).map fun off => (off, h.pageByte e off)).filter fun c => decide (c.2 ≠ 0)
  else (h.mem.filter fun c => inPage e c.1).map fun c => (c.1 % 2 ^ 21, c.2)

/-- A page zeroed (R242, R333, R335): every byte of its blocks, with its parity; no block of it is poisoned any more. -/
def HbmState.clearPage (h : HbmState) (e : Word) : HbmState :=
  let h : HbmState := { h with poisoned := h.poisoned.filter fun b => !(inPage e (256 * b)) }
  if ptePar e then (h.pageCells e).foldl (fun h c => h.pageWrite e c.1 [0]) h else { h with mem := h.mem.clear (hpaOf e 0) (2 ^ 21) }

/-- A page moved to another frame, its poisoned blocks with it (R240, R414). -/
def HbmState.movePage (h : HbmState) (old new : Word) : HbmState :=
  if pteFrame old = pteFrame new ∧ ptePar old = ptePar new then h
  else
    let bad := (h.poisoned.filter fun b => inPage old (256 * b)).map fun b => hpaOf new (256 * b % 2 ^ 21) / 256
    let u := (h.pageCells old).foldl (fun u c => u.pageWrite new c.1 [c.2]) (h.clearPage old)
    { u with poisoned := u.poisoned ++ bad }

/-! ## Bytes by virtual address -/

/-- n bytes at a virtual address; bytes of a page that is not mapped read zero here: its callers check the mapping. -/
def State.readVa (s : State) (x : Part) (va n : Nat) : List Byte :=
  (List.range n).map fun k =>
    match x.hpa (va + k) with
    | some _ => s.hbm.pageByte (x.pte ((va + k) / 2 ^ 21)) ((va + k) % 2 ^ 21)
    | none => 0

/-- Bytes written at a virtual address, block by block. -/
def writeVaRun (x : Part) : Nat → Nat → List Byte → HbmState → HbmState
  | 0, _, _, h => h
  | n + 1, va, bs, h =>
    if bs.isEmpty then h
    else
      let k := 256 - va % 256
      let h := match x.hpa va with
        | some _ => h.pageWrite (x.pte (va / 2 ^ 21)) (va % 2 ^ 21) (bs.take k)
        | none => h
      writeVaRun x n (va + k) (bs.drop k) h

def State.writeVa (s : State) (x : Part) (va : Nat) (bs : List Byte) : State :=
  { s with hbm := writeVaRun x (bs.length / 256 + 2) va bs s.hbm }

/-! ## The stored form (R414, R415) -/

/-- The memory key of a partition's generation (R414, Table 14-8). -/
def State.memKey (s : State) (p gen : Nat) : KeyPair := s.trust.memKeys.getD (2 * (p - 1) + gen) []

/-- The page that holds an HPA: its partition, virtual page and entry. -/
def State.pageAt (s : State) (hpa : Nat) : Option (Nat × Nat × Word) :=
  s.parts.findSome? fun q => (q.2.ptes.find? fun e => pteValid e.2 && inPage e.2 hpa).map fun e => (q.1, e.1, e.2)

/-- Two stacks of a group are lost (R234). -/
def HbmState.groupLost (h : HbmState) (g : Nat) : Bool := decide (2 ≤ ((List.range 8).filter fun i => h.lost (8 * g + i)).length)

/-- The block whose controller serves a write of a block: its stripe owner's for a parity page (R232). -/
def writeBlock (e : Word) (hpa : Nat) : Nat := if ptePar e then parityHpa e (hpa % 2 ^ 21) else hpa

/-- The block whose controller serves a read of a block: its stripe owner's where the data member is lost (R232, R233). -/
def HbmState.readBlock (h : HbmState) (e : Word) (hpa : Nat) : Nat :=
  if ptePar e && h.lost (siteOf hpa) then parityHpa e (hpa % 2 ^ 21) else hpa

/-- The controllers still hold the block: its stack is in service, or one stack of its group at most is lost (R233, R234). -/
def State.blockHeld (s : State) (e : Word) (hpa : Nat) : Bool :=
  if ptePar e then !(s.hbm.groupLost (pteFrame e / 2 ^ 18)) else s.fuses.hasStack (siteOf hpa) && !(s.hbm.lost (siteOf hpa))

/-- Key and data unit of the block at an HPA: those of the page's partition and VA, or PLAT and the HPA for a frame that no partition maps
(R414). -/
def State.blockKey (s : State) (hpa : Nat) : KeyPair × Nat :=
  match s.pageAt hpa with
  | some (p, vpn, e) => (s.memKey p (pteGen e), (vpn * 2 ^ 21 + hpa % 2 ^ 21) / 256)
  | none => (s.trust.plat.getD [], hpa / 256)

/-- A block as it is stored, and what a stored block holds (R414). -/
def State.sealBlock (s : State) (hpa : Nat) (bs : List Byte) : List Byte := xtsSeal (s.blockKey hpa).1 (s.blockKey hpa).2 bs
def State.openBlock (s : State) (hpa : Nat) (bs : List Byte) : List Byte := xtsOpen (s.blockKey hpa).1 (s.blockKey hpa).2 bs

/-- Data unit of block b of a message to a port: the tweak of R415. -/
def portUnit (peer channel b : Nat) : Nat := 2 ^ 127 ||| (peer <<< 48) ||| (channel <<< 40) ||| b

/-- The blocks of a message that a ferry sends to a port, each encrypted under the partition's current generation (R218, R415). -/
def portBlocks (key : KeyPair) (peer channel : Nat) : Nat → Nat → List Byte → List (List Byte)
  | 0, _, _ => []
  | n + 1, b, bs => xtsSeal key (portUnit peer channel b) (fitBytes 256 bs) :: portBlocks key peer channel n (b + 1) (bs.drop 256)

/-- The bytes of a message that the port engine has out of its blocks. -/
def portMessage (key : KeyPair) (peer channel : Nat) : Nat → List (List Byte) → List Byte
  | _, [] => []
  | b, c :: cs => xtsOpen key (portUnit peer channel b) c ++ portMessage key peer channel (b + 1) cs

/-- Every page that a byte range touches is mapped. -/
def Part.rangeMapped (x : Part) (va n : Nat) : Bool :=
  decide (va + n ≤ x.vaLimit) &&
    (decide (n = 0) || (List.range ((va + n - 1) / 2 ^ 21 - va / 2 ^ 21 + 1)).all fun k => pteValid (x.pte (va / 2 ^ 21 + k)))

/-- Mapped virtual pages, ascending. -/
def Part.mapped (x : Part) : List Nat := (x.ptes.filter fun e => pteValid e.2).map (·.1)

/-- Key of a frame in the table of owners. -/
def frameKey (par : Bool) (f : Nat) : Nat := f + (if par then 2 ^ 21 else 0)

/-- A stack is in service: present and not lost. -/
def State.stackUp (s : State) (site : Nat) : Bool := s.fuses.hasStack site && !(s.hbm.stackTab.getD site {}).lost

/-- Sites of a parity group in service (R230). -/
def State.groupUp (s : State) (g : Nat) : Bool := s.fuses.hasGroup g && (List.range 8).all fun k => s.stackUp (8 * g + k)

/-- A frame set of a group holds a parity page (R231). -/
def HbmState.setUsed (h : HbmState) (g k : Nat) : Bool :=
  (List.range 7).any fun slot => h.owned.has (frameKey true (g * 2 ^ 18 + slot * 2 ^ 15 + k))

/-- A frame is retired: by the repair list or for the current BOOT_EPOCH (R483). -/
def State.frameRetired (s : State) (f : Nat) : Bool := s.hbm.retired.contains f || s.repairs.contains (repairEntry 2 f)

/-- A whole frame is free for an ordinary page. -/
def State.frameFree (s : State) (f : Nat) : Bool :=
  s.stackUp (f / 2 ^ 15) && !(s.hbm.owned.has (frameKey false f)) && !(s.frameRetired f) &&
    !(s.fuses.hasGroup (f / 2 ^ 18) && s.hbm.setUsed (f / 2 ^ 18) (f % 2 ^ 15))

/-- A slot of a frame set is free for a parity page. -/
def State.slotFree (s : State) (f : Nat) : Bool :=
  s.groupUp (f / 2 ^ 18) && decide (f / 2 ^ 15 % 8 < 7) && !(s.hbm.owned.has (frameKey true f)) &&
    (List.range 8).all fun k =>
      let fr := (8 * (f / 2 ^ 18) + k) * 2 ^ 15 + f % 2 ^ 15
      !(s.hbm.owned.has (frameKey false fr)) && !(s.frameRetired fr)

/-- The lowest free frame of a kind at or above a code, looking at n codes. -/
def State.nextFree (s : State) (par : Bool) : Nat → Nat → Option Nat
  | 0, _ => none
  | n + 1, f => if (if par then s.slotFree f else s.frameFree f) then some f else s.nextFree par n (f + 1)

/-- Takes n free frames of a kind for an owner, lowest first (which frame firmware takes is its own choice, log 13). -/
def State.takeFrames (par : Bool) (owner : Nat) : Nat → Nat → State → Option (List Nat × State)
  | 0, _, s => some ([], s)
  | n + 1, lo, s =>
    match s.nextFree par (2 ^ 21 - lo) lo with
    | none => none
    | some f =>
      let s := { s with hbm := { s.hbm with owned := s.hbm.owned.set (frameKey par f) owner } }
      (State.takeFrames par owner n (f + 1) s).map fun r => (f :: r.1, r.2)

/-- Frames given back to the free pool. -/
def State.freeFrames (s : State) (par : Bool) (fs : List Nat) : State :=
  { s with hbm := { s.hbm with owned := fs.foldl (fun o f => o.erase (frameKey par f)) s.hbm.owned } }

/-- The partition a frame belongs to, and whether it holds parity pages. -/
def State.frameOwner (s : State) (f : Nat) : Nat × Bool :=
  let g := f / 2 ^ 18
  match s.hbm.owned.find (frameKey false f) with
  | some p => (p, false)
  | none =>
    if s.fuses.hasGroup g && s.hbm.setUsed g (f % 2 ^ 15) then
      (((List.range 7).foldl (fun n slot => max n (s.hbm.owned.getD (frameKey true (g * 2 ^ 18 + slot * 2 ^ 15 + f % 2 ^ 15)) 0)) 0), true)
    else (0, false)

end Sys2Proof.Machine
end

