-- ==== Sys2Proof/Machine/TribOps.lean ====
section
/-! DEFINITION. Tributary frames the panel sends (R287-R300, R313, R412, R413) and lock-step messages (R283). -/

namespace Sys2Proof.Machine

/-- Connection key of R412 for a rotation index. -/
def connKey (secret : List Byte) (mpj : BitVec 32) (panelA panelB partA partB ix rot : Nat) : List Byte :=
  let lo := decide (panelA < panelB)
  kmac256 secret (beBytes 4 mpj.toNat ++ beBytes 2 (min panelA panelB) ++ beBytes 2 (max panelA panelB) ++
    beBytes 1 (if lo then partA else partB) ++ beBytes 1 (if lo then partB else partA) ++ beBytes 1 ix ++ beBytes 4 rot) 32 "ZM1-TRIB"

/-- The GCM nonce of R293. -/
def tNonce (srcPanel srcPart dstPart : Nat) (seq : BitVec 32) (xmit ix : Nat) : List Byte :=
  beBytes 2 srcPanel ++ beBytes 1 srcPart ++ beBytes 1 dstPart ++ beBytes 4 seq.toNat ++ beBytes 2 xmit ++ beBytes 1 ix ++ [0]

/-- The 32 header bytes (Table 11-3). -/
def tHeader (type dstPart srcPart srcPanel dstPanel : Nat) (context seq ack : BitVec 32) (flags len xmit keyId ix : Nat) :
    List Byte :=
  beBytes 1 1 ++ beBytes 1 type ++ beBytes 1 dstPart ++ beBytes 1 srcPart ++ beBytes 2 srcPanel ++ beBytes 2 dstPanel ++
    beBytes 4 context.toNat ++ beBytes 4 seq.toNat ++ beBytes 4 ack.toNat ++ beBytes 2 flags ++ beBytes 2 len ++ beBytes 2 xmit ++
    beBytes 1 keyId ++ beBytes 1 ix ++ [0, 0, 0, 0]

/-- Die and unit of a scale-out port (R18, R19). -/
def portDie (id : Nat) : Nat := if id < 0x18 then id else 0x20 + (id - 0x20) / 4

def Conn.is (k : Conn) (part peer ix : Nat) : Bool := decide (k.part = part) && decide (k.peer = peer) && decide (k.ix = ix)

def State.conn (s : State) (part peer ix : Nat) : Option Conn := s.trib.conns.find? fun k => k.is part peer ix

def State.updConn (s : State) (part peer ix : Nat) (f : Conn → Conn) : State :=
  { s with trib := { s.trib with conns := s.trib.conns.map fun k => if k.is part peer ix then f k else k } }

/-- The key a connection uses for sending or receiving at a rotation index. -/
def State.keyOf (s : State) (k : Conn) (rot : Nat) : List Byte := connKey k.secret k.mpj s.panel k.peer k.part k.peerPart k.ix rot

def tFlagAckv : Nat := 0x8000
def tFlagFirst : Nat := 0x4000
def tFlagLast : Nat := 0x2000
def tFlagMcast : Nat := 0x1000

def State.tport (s : State) (port : Nat) : TPort := s.trib.ports.getD port {}

/-- UDP_PORT, VLAN_ID and BULK_PCP of a port (Table 11-10). -/
def TPort.udpPort (p : TPort) : BitVec 16 := BitVec.ofNat 16 (bits p.cfg.toNat 63 48)
def TPort.vlan (p : TPort) : Nat := bits p.cfg.toNat 43 32
def TPort.bulkPcp (p : TPort) : Nat := bits p.cfg.toNat 31 29

/-- IPv6 address of a port of a panel: ADDR_PREFIX, PANEL_NO, 0x00, PORT_ID (R366). -/
def State.addrOf (s : State) (panel port : Nat) : BitVec 128 :=
  BitVec.ofNat 128 (((s.preg 33).value.toNat * 2 ^ 32 + (s.preg 34).value.toNat / 2 ^ 32) * 2 ^ 32 + panel * 2 ^ 16 + port)

/-- MAC address of a scale-out port, from the fuses (R508). -/
def portMac (port : Nat) : BitVec 48 := Config.baseMac + BitVec.ofNat 48 port

/-- Types without a context: the control queue (Table 11-4). -/
def tControl (type : Nat) : Bool := !(decide (type ∈ [0x01, 0x03, 0x04]))

/-- The ones' complement sum of 16-bit words, as UDP over IPv6 takes it, with 0 sent as all ones (R287; PRESUMED, RFC 768 and RFC 8200). -/
def onesSum (bs : List Byte) : BitVec 16 :=
  let fold := fun (n : Nat) => n % 65536 + n / 65536
  let even := bs ++ (if bs.length % 2 = 1 then [0] else [])
  let n := (List.range (even.length / 2)).foldl (fun n i => fold (n + (even.getD (2 * i) 0).toNat * 256 + (even.getD (2 * i + 1) 0).toNat)) 0
  let c := 65535 - n
  BitVec.ofNat 16 (if c = 0 then 65535 else c)

/-- Carriage of a frame of a connection (Table 11-2). Connection i of both sides joins the share's port i, which is the same port on every
panel (R289, R366). -/
def State.carry (s : State) (k : Conn) (type : Nat) (bytes : List Byte) : Carriage :=
  let p := s.tport k.port
  let pcp := if tControl type then 6 else p.bulkPcp
  let flow := (k.part - 1) * 2 ^ 14 + (k.peerPart - 1) * 2 ^ 8 + k.ix
  let src := s.addrOf s.panel k.port
  let dst := s.addrOf k.peer k.port
  let udpSrc := 49152 + flow % 16384
  let len := 8 + bytes.length
  let pseudo := beBytes 16 src.toNat ++ beBytes 16 dst.toNat ++ beBytes 4 len ++ [0, 0, 0, 17]
  let head := beBytes 2 udpSrc ++ beBytes 2 p.udpPort.toNat ++ beBytes 2 len ++ [0, 0]
  { dstMac := p.gateway, srcMac := portMac k.port, pcp := pcp, vid := p.vlan, dscp := 8 * pcp, ecn := if tControl type then 0 else 2, flow := flow,
    hopLimit := 64, src := src, dst := dst, udpSrc := BitVec.ofNat 16 udpSrc, udpDst := p.udpPort, checksum := onesSum (pseudo ++ head ++ bytes) }

/-- A frame put on the wire (R287, R292, R293); ACKV is always set. -/
def State.emit (s : State) (k : Conn) (t : TSent) : State :=
  let flags := t.flags ||| tFlagAckv
  let header := tHeader t.type k.peerPart k.part s.panel k.peer t.context t.seq k.cum flags t.payload.length t.xmit (t.rot % 2) k.ix
  let body := gcmSeal (s.keyOf k t.rot) (tNonce s.panel k.part k.peerPart t.seq t.xmit k.ix) header t.payload
  let w : TWire := { port := k.port, type := t.type, dstPart := k.peerPart, srcPart := k.part, srcPanel := s.panel, dstPanel := k.peer,
                     context := t.context, seq := t.seq, ack := k.cum, flags := flags, xmit := t.xmit, keyId := t.rot % 2,
                     connIx := k.ix, body := body, carriage := s.carry k t.type (header ++ body) }
  { s with trib := { s.trib with sent := w :: s.trib.sent } }

/-- Serial of a CONTEXT, and CONTEXT of a serial (R294). -/
def ctxSerial (c : Nat) : Nat := c % 64 * 2 ^ 18 + c / 64 % 2 ^ 18
def serialCtx (n : Nat) : BitVec 32 := BitVec.ofNat 32 (n % 2 ^ 18 * 64 + n / 2 ^ 18 % 64)

/-- A waiting frame may go: its message lies in the context window (R295). -/
def Conn.mayGo (k : Conn) (t : TSent) : Bool :=
  tControl t.type || decide ((ctxSerial t.context.toNat + 2 ^ 24 - k.peerHorizon) % 2 ^ 24 < k.win)

/-- Takes the first frame that may go. -/
def takeFrame (f : TSent → Bool) : List TSent → Option (TSent × List TSent)
  | [] => none
  | o :: t => if f o then some (o, t) else (takeFrame f t).map fun r => (r.1, o :: r.2)

/-- The ferry whose message a frame belongs to. -/
def Conn.ferryOf (k : Conn) (u : TSent) : Option (Nat × Nat) :=
  (k.sending.find? fun m => decide (serialCtx m.serial = u.context)).bind TxMsg.ferry

/-- A frame is a copy of a multicast message (R304). -/
def TSent.mcast (u : TSent) : Bool := decide (u.flags &&& tFlagMcast ≠ 0)

/-- Payload bytes that a port's retransmission buffer holds (R299): of a multicast message one payload for all its copies (R304). -/
def TribState.buffered (t : TribState) (port : Nat) : Nat :=
  let ks := t.conns.filter fun k => decide (k.port = port)
  let own := (ks.flatMap fun k => (k.unacked.filter fun u => !u.mcast).map fun u => u.payload.length).sum
  let shared := (ks.flatMap fun k => (k.unacked.filter TSent.mcast).map fun u => (k.part, k.ferryOf u, u.payload)).eraseDups
  own + (shared.map fun q => q.2.2.length).sum

/-- Rotation index for the next SEQ: the key changes every 2^31 frames (R293, R413). -/
def Conn.nextRot (k : Conn) : Nat :=
  if (k.seq = 0 ∧ k.rotTx % 2 = 1) ∨ (k.seq.toNat = 2 ^ 31 ∧ k.rotTx % 2 = 0) then k.rotTx + 1 else k.rotTx

/-- The next waiting frame of a connection for a queue, control or bulk, that the frame window, the context window and the retransmission
buffer let go, and those behind it (R295, R299, R305). -/
def State.nextFrame (s : State) (k : Conn) (ctrl : Bool) : Option (TSent × List TSent) :=
  if 65536 ≤ k.unacked.length then none
  else
    match takeFrame (fun t => (tControl t.type == ctrl) && k.mayGo t) k.waiting with
    | some w => if 67108864 < s.trib.buffered k.port + w.1.payload.length then none else some w
    | none => none

/-- A waiting frame numbered and sent (R292). -/
def State.sendFrame (s : State) (k : Conn) (w : TSent × List TSent) : State :=
  let rot := k.nextRot
  let t : TSent := { w.1 with seq := k.seq, rot := rot, timeout := k.rto, sentAt := s.clock.ref }
  (s.emit k t).updConn k.part k.peer k.ix fun k =>
    { k with seq := k.seq + 1, rotTx := rot, unacked := k.unacked ++ [t], waiting := w.2, ackDue := 0 }

/-- Waiting frames of a connection sent, those of the control queue first (R305). -/
def State.pumpConn : Nat → State → Nat → Nat → Nat → State
  | 0, s, _, _, _ => s
  | n + 1, s, part, peer, ix =>
    match s.conn part peer ix with
    | none => s
    | some k =>
      match s.nextFrame k true with
      | some w => State.pumpConn n (s.sendFrame k w) part peer ix
      | none =>
        match s.nextFrame k false with
        | some w => State.pumpConn n (s.sendFrame k w) part peer ix
        | none => s

/-- The first connection of a port that has a frame ready for a queue, and the frame. -/
def State.readyOn (s : State) (port : Nat) (ctrl : Bool) (part : Option Nat) : Option (Conn × TSent × List TSent) :=
  s.trib.conns.findSome? fun k =>
    if k.port = port ∧ (part = none ∨ part = some k.part) then (s.nextFrame k ctrl).map fun w => (k, w) else none

/-- Bulk weight of a partition on a port (R288). -/
def State.weightOn (s : State) (part port : Nat) : Nat :=
  match s.part part with
  | some x => (x.share.foldl (fun n q => if q.1 = port then n + q.2 else n) 0)
  | none => 0

/-- The partition whose turn follows: the next with a bulk frame ready, in cyclic order (R305). -/
def State.nextTurn (s : State) (port turn : Nat) : Option Nat :=
  let ps := ((List.range 65).filter fun p => (s.readyOn port false (some p)).isSome)
  match ps.find? fun p => decide (turn < p) with
  | some p => some p
  | none => ps.head?

/-- Waiting frames of a port's connections sent once its buffer has room: control frames first; bulk frames by deficit round robin, where a
turn gives a partition 8,192 bytes for each unit of its weight (R299, R305; DESIGN CHOICE, log 139). -/
def State.pumpPort : Nat → State → Nat → State
  | 0, s, _ => s
  | n + 1, s, port =>
    match s.readyOn port true none with
    | some q => State.pumpPort n (s.sendFrame q.1 q.2) port
    | none =>
      let tp := s.tport port
      let setPort := fun (s : State) (tp : TPort) => ({ s with trib := { s.trib with ports := s.trib.ports.set port tp } } : State)
      let move := fun (s : State) => match s.nextTurn port tp.turn with
        | none => none
        | some p =>
          let left := if p = tp.turn then tp.deficit.getD p 0 else 0
          some (setPort s { tp with turn := p, deficit := (tp.deficit.erase tp.turn).set p (left + 8192 * max 1 (s.weightOn p port)) })
      match s.readyOn port false (some tp.turn) with
      | some q =>
        let d := tp.deficit.getD tp.turn 0
        let len := q.2.1.payload.length
        if len ≤ d then State.pumpPort n (setPort (s.sendFrame q.1 q.2) { tp with deficit := tp.deficit.set tp.turn (d - len) }) port
        else
          match move s with
          | some t => State.pumpPort n t port
          | none => s
      | none =>
        match move s with
        | some t => State.pumpPort n t port
        | none => s

/-- A frame that consumes a SEQ given to a connection. -/
def State.tribSend (s : State) (part peer ix type : Nat) (context : BitVec 32) (flags : Nat) (payload : List Byte) : State :=
  let t : TSent := { seq := 0, type := type, context := context, flags := flags, payload := payload }
  let s := s.updConn part peer ix fun k => { k with waiting := k.waiting ++ [t] }
  match s.conn part peer ix with
  | some k => State.pumpConn k.waiting.length s part peer ix
  | none => s

/-- Connections of a partition to a peer that still carry new messages. -/
def State.connsTo (s : State) (p peer : Nat) : List Conn :=
  s.trib.conns.filter fun k => decide (k.part = p) && decide (k.peer = peer) && !k.leaving

/-- The connection a message travels on: its number modulo K (R291). -/
def State.connFor (s : State) (p peer n : Nat) : Option Conn :=
  let ks := s.connsTo p peer
  if ks.isEmpty then none else ks.find? fun k => decide (k.ix = n % ks.length)

/-- Frames of one message under one serial, FIRST and LAST marked (R292, R295). -/
def State.openMsg (s : State) (k : Conn) (type extra : Nat) (ferry : Option (Nat × Nat)) (payloads : List (List Byte)) : State :=
  let n := k.serial
  let s := s.updConn k.part k.peer k.ix fun c =>
    { c with serial := (n + 1) % 2 ^ 24, sending := c.sending ++ [⟨n, ferry⟩] }
  payloads.zipIdx.foldl (fun s q =>
    s.tribSend k.part k.peer k.ix type (serialCtx n)
      (extra ||| (if q.2 = 0 then tFlagFirst else 0) ||| (if q.2 + 1 = payloads.length then tFlagLast else 0)) q.1) s

/-- ACK payload (Table 11-5). -/
def Conn.ackPayload (k : Conn) : List Byte :=
  let sack := k.above.foldl (fun n q =>
    let d := (q - k.cum - 1).toNat
    if d < 64 then n ||| 2 ^ d else n) 0
  beBytes 8 sack ++ beBytes 4 (k.horizon % 2 ^ 24) ++ beBytes 4 k.ceCount ++ beBytes 4 k.rxCount ++ List.replicate 12 0

/-- An ACK frame: SEQ of the last frame sent, not advanced (R292, R298). -/
def State.ackNow (s : State) (part peer ix : Nat) : State :=
  match s.conn part peer ix with
  | none => s
  | some k =>
    (s.emit k { seq := k.seq - 1, type := 0x02, context := 0, flags := 0, payload := k.ackPayload, rot := k.rotTx }).updConn
      part peer ix fun k => { k with ackDue := 0, ceCount := 0, rxCount := 0, ackAt := some s.clock.ref }

/-- A frame that has been marked calls for an ACK frame: it lies beyond a gap, or it is the 16th and none went in the last 4 us (R298). -/
def Conn.ackCalled (k : Conn) (seq : BitVec 32) (ref : Nat) : Bool :=
  k.above.contains seq || (decide (16 ≤ k.ackDue) && match k.ackAt with
    | some a => decide (a + 100 ≤ ref)
    | none => true)

/-- LEAVE payload (R313). -/
def State.leavePayload (s : State) (reason : Nat) : List Byte := beBytes 4 s.bootEpoch ++ beBytes 1 reason ++ List.replicate 27 0

/-- LEAVE on the connections of a partition, or on every one (part 0), that are not leaving already (R291, R313). -/
def State.sendLeave (s : State) (part reason : Nat) : State :=
  s.trib.conns.foldl (fun s k =>
    if (decide (part = 0) || decide (k.part = part)) && !k.leaving then
      (s.tribSend k.part k.peer k.ix 0x06 0 0 (s.leavePayload reason)).updConn k.part k.peer k.ix
        fun k => { k with leaving := true }
    else s) s

/-- Lock-step message payload (Table 10-9). -/
def lsPayload (pairId : BitVec 32) (kind meridian digest : Nat) (start : List Byte) : List Byte :=
  beBytes 4 pairId.toNat ++ beBytes 1 kind ++ [0, 0, 0] ++ beBytes 8 meridian ++ beBytes 8 digest ++ fitBytes 56 start

/-- A lock-step message to the peer: an LSTEP frame on connection 0 between panels; within one panel it passes through the
control die, and stands in the record of sent frames with the port 0xFF (R283). -/
def State.lsSend (s : State) (part : Nat) (pr : Pairing) (payload : List Byte) : State :=
  if pr.peerPanel = s.panel then
    let w : TWire := { port := 0xFF, type := 0x08, dstPart := pr.peerPart, srcPart := part, srcPanel := s.panel, dstPanel := s.panel,
                       context := 0, seq := 0, ack := 0, flags := 0, xmit := 0, keyId := 0, connIx := 0, body := payload }
    { s with trib := { s.trib with sent := w :: s.trib.sent } }
  else s.tribSend part pr.peerPanel 0 0x08 0 0 payload

end Sys2Proof.Machine
end

