-- ==== Sys2Proof/Machine/VorlaOps.lean ====
section
/-! DEFINITION. Vorla frames the panel sends: header, trailer, sealing, numbering, events and session ends (R318-R331, R367,
R410). -/

namespace Sys2Proof.Machine

/-- Host port MAC of HOST0 or HOST1 (R508). -/
def hostPortMac (port : Nat) : BitVec 48 := Config.baseMac + 0x18 + BitVec.ofNat 48 port

def macBroadcast : BitVec 48 := 0xFFFFFFFFFFFF

/-- The 32 header bytes (Table 12-1). -/
def vHeader (version flags mailbox opcode seq ack tag len epoch : Nat) : List Byte :=
  beBytes 2 0x5A4D ++ beBytes 1 version ++ beBytes 1 flags ++ beBytes 1 mailbox ++ [0] ++ beBytes 2 opcode ++ beBytes 4 seq ++
    beBytes 4 ack ++ beBytes 4 tag ++ beBytes 4 len ++ beBytes 2 epoch ++ List.replicate 6 0

/-- The null key of R320. -/
def nullKey : List Byte := List.replicate 32 0

/-- The trailer of R320 and R410. -/
def vTrailer (key header payload : List Byte) : List Byte := kmac256 key (header ++ payload) 16 "ZM1-VORLA"

/-- The GCM nonce of R410: MAILBOX, DIRECTION, 16 zero bits, SEQUENCE, 32 zero bits. -/
def vNonce (mailbox dir : Nat) (seq : BitVec 32) : List Byte :=
  beBytes 1 mailbox ++ beBytes 1 dir ++ [0, 0] ++ beBytes 4 seq.toNat ++ [0, 0, 0, 0]

/-- A mailbox without a session. -/
def Mailbox.fresh : Mailbox := {}

def State.box (s : State) (m : Nat) : Mailbox := s.host.boxes.getD m Mailbox.fresh

def State.updBox (s : State) (m : Nat) (f : Mailbox → Mailbox) : State :=
  { s with host := { s.host with boxes := s.host.boxes.set m (f (s.box m)) } }

def flagResp : Nat := 0x80
def flagAckv : Nat := 0x40
def flagMore : Nat := 0x20
def flagNull : Nat := 0x10
def flagUnseq : Nat := 0x08

/-- A frame put on the wire with its numbers, seal and trailer (R319, R320, R322, R410). -/
def Mailbox.wire (b : Mailbox) (m : Nat) (o : VOut) : VWire :=
  let unseq := bit o.flags 3
  let noKey := b.kMac.isNone
  let flags := o.flags ||| flagAckv ||| (if noKey then flagNull else 0)
  let seq := if unseq then 0 else b.txNext
  let len := o.payload.length + (if o.sealAt.isSome && b.kData.isSome then 16 else 0)
  let header := vHeader 0x10 flags m o.opcode seq.toNat b.rxNext.toNat o.tag.toNat len b.epoch.toNat
  let payload :=
    match o.sealAt, b.kData with
    | some k, some key => o.payload.take k ++ gcmSeal key (vNonce m 1 seq) header (o.payload.drop k)
    | _, _ => o.payload
  let key := if bit flags 4 then nullKey else b.kMac.getD nullKey
  { port := b.hostPort, dst := b.hostMac, mailbox := m, opcode := o.opcode, flags := flags, seq := seq, ack := b.rxNext,
    tag := o.tag, epoch := b.epoch, payload := payload, trailer := vTrailer key header payload }

def State.putWire (s : State) (w : VWire) : State := { s with host := { s.host with sent := w :: s.host.sent } }

/-- JOB_DONE and EVENT frames, which outlive a session (R323). -/
def keptOpcode (op : Nat) : Bool := decide (op = 0x42 ∨ op = 0xF0)

/-- A waiting frame may go: JOB_DONE and EVENT only once the session holds a mailbox key (R323). -/
def Mailbox.maySend (b : Mailbox) (o : VOut) : Bool := b.live && (!keptOpcode o.opcode || b.kMac.isSome)

/-- Takes the first waiting frame that may go. -/
def takeFirst (f : VOut → Bool) : List VOut → Option (VOut × List VOut)
  | [] => none
  | o :: t => if f o then some (o, t) else (takeFirst f t).map fun r => (r.1, o :: r.2)

/-- Waiting frames sent while fewer than 64 are unacknowledged (R322). -/
def State.pump : Nat → State → Nat → State
  | 0, s, _ => s
  | n + 1, s, m =>
    let b := s.box m
    if 64 ≤ b.unacked.length then s
    else
      match takeFirst b.maySend b.waiting with
      | none => s
      | some (o, rest) =>
        let w := b.wire m o
        let s := (s.putWire w).updBox m fun b =>
          { b with waiting := rest, txNext := b.txNext + 1, unacked := b.unacked ++ [⟨w, 2⟩], ackDue := false }
        State.pump n s m

/-- A sequenced frame given to a mailbox (R322). -/
def State.post (s : State) (m : Nat) (o : VOut) : State :=
  let s := s.updBox m fun b => { b with waiting := b.waiting ++ [o] }
  s.pump (s.box m).waiting.length m

/-- An UNSEQ frame sent at once. -/
def State.postUnseq (s : State) (m : Nat) (o : VOut) : State :=
  (s.putWire ((s.box m).wire m { o with flags := o.flags ||| flagUnseq })).updBox m fun b => { b with ackDue := false }

/-- A request that a mailbox has accepted: what its meaning reads. -/
structure Req where
  box : Nat
  opcode : Nat
  tag : BitVec 32
  flags : Nat := 0
  seq : BitVec 32 := 0
  /-- Header bytes, the associated data of R410. -/
  header : List Byte := []
  payload : List Byte := []
  deriving DecidableEq, Repr

/-- The request is finished: its TAG is no longer outstanding. -/
def State.settle (s : State) (r : Req) : State := s.updBox r.box fun b => { b with outstanding := b.outstanding.erase r.tag }

/-- The session that sent a request is still there to be answered (R323). -/
def State.asks (s : State) (r : Req) : Bool := (s.box r.box).outstanding.contains r.tag

/-- Fields that follow the status word of a reply that refuses (log 56): CENSUS; JOB_ID, FLAGS and SEED; INJ_ID and INSTANCES;
TEST_ID and the unit counts; TEST_ID. They name nothing: a JOB_ID is 0xFFFF_FFFF (R339), every other field 0. -/
def refusedBody (op : Nat) : List Byte :=
  if op = 0x30 ∨ op = 0x72 then beBytes 4 0
  else if op = 0x41 then beBytes 4 0xFFFFFFFF ++ List.replicate 20 0
  else if op = 0x63 then List.replicate 8 0
  else if op = 0x71 then List.replicate 12 0
  else []

/-- The reply to a request: STATUS, two reserved bytes and the rest (R324). -/
def State.reply (s : State) (r : Req) (st : Status) (body : List Byte) : State :=
  if !(s.asks r) then s
  else (s.settle r).post r.box ⟨r.opcode, flagResp, r.tag, beBytes 2 st.code ++ [0, 0] ++ (if body.isEmpty then refusedBody r.opcode else body), none⟩

/-- A reply whose bytes from k on, after the status word, are sealed under K_DATA (R410). -/
def State.replySealed (s : State) (r : Req) (st : Status) (body : List Byte) (k : Nat) : State :=
  if !(s.asks r) then s
  else (s.settle r).post r.box ⟨r.opcode, flagResp, r.tag, beBytes 2 st.code ++ [0, 0] ++ body, some (4 + k)⟩

/-- REPLY_ERROR payload (R329). -/
def errorPayload (st : Status) (opcode : Nat) (seq : BitVec 32) : List Byte :=
  beBytes 2 st.code ++ [0, 0] ++ beBytes 2 opcode ++ [0, 0] ++ beBytes 4 seq.toNat

/-- Frames after the first of a stream: STATUS, two reserved bytes, OFFSET and data (R348). -/
def streamRest (per : Nat) : Nat → Nat → List Byte → List (Nat × List Byte)
  | 0, _, _ => []
  | n + 1, off, bs => if bs.isEmpty then [] else (off, bs.take per) :: streamRest per n (off + per) (bs.drop per)

/-- A streamed reply (R348): the first frame has STATUS and two reserved bytes, the later ones also OFFSET. -/
def State.replyStream (s : State) (r : Req) (st : Status) (sealed : Bool) (base : Nat) (bs : List Byte) : State :=
  if !(s.asks r) then s
  else
  let tagLen := if sealed then 16 else 0
  let first := 8192 - 4 - tagLen
  let rest := streamRest (8192 - 12 - tagLen) bs.length (base + first) (bs.drop first)
  let s := s.settle r
  let more := fun (b : Bool) => if b then flagMore else 0
  let s := s.post r.box ⟨r.opcode, flagResp + more (!rest.isEmpty), r.tag, beBytes 2 st.code ++ [0, 0] ++ bs.take first,
    if sealed then some 4 else none⟩
  (rest.zipIdx).foldl (fun s x =>
    s.post r.box ⟨r.opcode, flagResp + more (decide (x.2 + 1 < rest.length)), r.tag,
      beBytes 2 st.code ++ [0, 0] ++ beBytes 8 x.1.1 ++ x.1.2, if sealed then some 12 else none⟩) s

/-- Drops the oldest EVENT of a mailbox, unsent ones first (R367). -/
def Mailbox.dropEvent (b : Mailbox) : Mailbox :=
  match takeFirst (fun o => decide (o.opcode = 0xF0)) b.waiting with
  | some (_, rest) => { b with waiting := rest, eventsLost := b.eventsLost + 1 }
  | none =>
    { b with unacked := b.unacked.eraseP fun v => decide (v.wire.opcode = 0xF0), eventsLost := b.eventsLost + 1 }

/-- EVENTs of a mailbox not yet acknowledged. -/
def Mailbox.events (b : Mailbox) : Nat :=
  (b.waiting.filter fun o => decide (o.opcode = 0xF0)).length + (b.unacked.filter fun v => decide (v.wire.opcode = 0xF0)).length

/-- EVENT payload (R367). -/
def eventPayload (kind part : Nat) (detail : List Byte) : List Byte :=
  beBytes 2 kind ++ beBytes 1 part ++ [0] ++ fitBytes 28 detail

/-- An EVENT on a mailbox; beyond 256 the oldest is dropped and EVENTS_LOST names the count (R367). -/
def State.event (s : State) (m kind part : Nat) (detail : List Byte) : State :=
  let full := decide (256 ≤ (s.box m).events)
  let s := if full then s.updBox m Mailbox.dropEvent else s
  let s := s.post m ⟨0xF0, 0, 0, eventPayload kind part detail, none⟩
  if full then s.post m ⟨0xF0, 0, 0, eventPayload 8 0 (beBytes 4 (s.box m).eventsLost), none⟩ else s

/-- The end of a session: keys destroyed, frames discarded but JOB_DONE and EVENT (R323, R326). -/
def Mailbox.close (b : Mailbox) : Mailbox :=
  let kept := (b.unacked.filter fun v => keptOpcode v.wire.opcode).map fun v =>
    (⟨v.wire.opcode, 0, v.wire.tag, v.wire.payload, none⟩ : VOut)
  { b with live := false, kMac := none, kData := none, rxNext := 0, txNext := 0, unacked := [],
           waiting := kept ++ b.waiting.filter (fun o => keptOpcode o.opcode), outstanding := [], partials := [], ackDue := false,
           offer := none, openLoad := none }

/-- BYE to every open mailbox (R331). -/
def State.sendBye (s : State) (reason : Nat) : State :=
  s.host.boxes.foldl (fun s e =>
    if e.2.live then s.postUnseq e.1 ⟨0x04, 0, 0, beBytes 4 s.bootEpoch ++ beBytes 1 reason ++ [0, 0, 0], none⟩ else s) s

/-- REPLY_ERROR for rows 1-3 of Table 12-3: UNSEQ, under the null key, at most one per mailbox per 10 ms of REF. -/
def State.replyErrorNull (s : State) (f : VFrame) (opcode : Nat) (st : Status) : State :=
  let m := f.mailbox.toNat
  let b := s.box m
  if s.clock.ref < b.errAfter then s
  else
    let flags := flagResp + flagUnseq + flagNull
    let payload := errorPayload st opcode f.seq
    let header := vHeader 0x10 flags m 0xFF 0 0 f.tag.toNat payload.length b.epoch.toNat
    let w : VWire := { port := f.port, dst := f.src, mailbox := m, opcode := 0xFF, flags := flags, seq := 0, ack := 0, tag := f.tag,
                       epoch := b.epoch, payload := payload, trailer := vTrailer nullKey header payload }
    (s.putWire w).updBox m fun b => { b with errAfter := s.clock.ref + 250000 }

/-- REPLY_ERROR for rows 5-7 of Table 12-3: sequenced on the session. -/
def State.replyError (s : State) (m opcode : Nat) (tag seq : BitVec 32) (st : Status) : State :=
  s.post m ⟨0xFF, flagResp, tag, errorPayload st opcode seq, none⟩

end Sys2Proof.Machine
end

