-- ==== Sys2Proof/Machine/JobOps.lean ====
section
/-! DEFINITION. How a job ends: the audit record, the journal, JOB_DONE, and what a partition sheds (R270, R335, R341, R342, R485,
R486). -/

namespace Sys2Proof.Machine

/-- The OR of FP_STATUS over the tiles of a partition (R54). -/
def State.fpOr (s : State) (p : Nat) : Nat := (s.tilesOf p).foldl (fun n t => n ||| (s.tile t).fp.toNat % 16) 0

/-- Sum of TILE_ACC over the tiles of a partition (R273). -/
def State.accSum (s : State) (p : Nat) : Word := (s.tilesOf p).foldl (fun n t => n + (s.tile t).acc) 0

/-- AUD_FLAGS (Table 10-4). -/
def RunJob.audFlags (r : RunJob) (j : Job) : Nat :=
  bnat r.unbounded + bnat r.shapeChanged * 2 + bnat r.forced * 4 + bnat (bit j.flags 0) * 8 + bnat r.relaxed * 16 +
    bnat j.rerun * 32 + bnat (r.digestOn && !r.digestBad) * 64 + bnat r.lockstep * 128 + bnat r.diverged * 256 + bnat r.stopped * 512

/-- The audit record (Table 10-3). -/
def State.audit (s : State) (p : Nat) (r : RunJob) (j : Job) (st : Status) : List Byte :=
  let x := (s.part p).getD {}
  let family := match x.program with
    | some g => fitBytes 32 g.family
    | none => List.replicate 32 0
  let unb := r.unbounded || (s.tilesOf p).any fun t => (s.tile t).array.unbounded
  let r := { r with unbounded := unb }
  let digest := if r.digestOn && !r.digestBad then r.digest + s.accSum p else 0
  beBytes 2 1 ++ beBytes 2 (r.audFlags j) ++ beBytes 4 j.id.toNat ++ beBytes 2 st.code ++ beBytes 1 (bnat (bit j.flags 1)) ++
    beBytes 1 ((r.fp ||| s.fpOr p) % 16) ++ beBytes 4 r.censusStart ++ beBytes 4 (s.census p) ++ beBytes 2 j.panels ++
    beBytes 1 s.fuses.build ++ beBytes 1 s.fuses.gradeCode ++ beBytes 16 j.seed ++ beBytes 8 j.start.toNat ++
    beBytes 8 x.meridian.toNat ++ family ++ beBytes 8 digest.toNat ++ beBytes 4 (sat 32 r.preempts) ++ beBytes 4 (sat 32 r.restores) ++
    beBytes 4 (sat 32 j.reruns) ++ beBytes 4 (sat 32 r.events) ++ beBytes 2 r.lsPeerPanel ++ beBytes 1 r.lsPeerPart ++
    List.replicate 13 0

/-- JOB_DONE payload (R341). -/
def State.donePayload (s : State) (p : Nat) (r : RunJob) (j : Job) (st : Status) : List Byte :=
  beBytes 2 st.code ++ [0, 0] ++ s.audit p r j st

/-- What a tile keeps when a job of its partition ends or is discarded: SRAM, FP_STATUS, seed and Riffle status, with a
Riffle unit that a detector has stopped stopped until the next job (R130; log 120); its units
stop, and a sequencer halted in FAULT reads so until the next job (R154, R342, R485). -/
def TileState.shed (x : TileState) : TileState :=
  { sram := x.sram, fp := x.fp, seedHi := x.seedHi, seedLo := x.seedLo, checkErr := x.checkErr, romErr := x.romErr,
    katFail := x.katFail, checkLane := x.checkLane, riffleStop := x.riffleStop, eyepiece := x.eyepiece,
    array := { ctrl := x.array.ctrl &&& 0xFFFFFFEF, pairs := x.array.pairs, slotEmpty := x.array.slotEmpty, termCnt := x.array.termCnt,
               segCnt := x.array.segCnt, accLong := x.array.accLong },
    ferry := { x.ferry with slots := [] },
    seq := if x.seq.phase = SeqPhase.fault then x.seq else {},
    halted := true }

/-- A CHAIN frame: header and entries (Table 4-8). -/
def chainPayload (step id lead off num flags : Nat) (entries : List Byte) : List Byte :=
  beBytes 8 step ++ beBytes 4 id ++ beBytes 4 lead ++ beBytes 4 off ++ beBytes 2 num ++ beBytes 2 flags ++ entries

/-- Every leg tail that would send to a panel abandons its instance with one ABORT frame (R107). -/
def State.abortChains (s : State) (p : Nat) : State :=
  (s.tilesOf p).foldl (fun s t =>
    (s.tile t).chains.foldl (fun s e =>
      let c := e.words
      if c.outDir = 5 then
        match s.connFor p c.peer c.id with
        | some k => s.openMsg k 0x04 0 none [chainPayload e.step c.id ((c.segFirst + c.span) % 2 ^ 32) 0 0 (0x4000 + c.op) []]
        | none => s
      else s) s) s

/-- The running job of a partition discarded: its tile, ferry, chain, sequencer and draw state, its inboxes and flits, and its
connections leave (R291, R342, R485, R486). -/
def State.discardRun (s : State) (p : Nat) : State :=
  let s := (s.abortChains p).sendLeave p 3
  let s := match s.running p with
    | some (r, _) => s.freeFrames false r.copyFrames
    | none => s
  let s := s.updTiles (s.tilesOf p) TileState.shed
  let s := s.updPart p fun x => { x with run := none, chainIn := [], haloIn := [], arrives := [], gathered := false, released := false }
  { s with mesh := { s.mesh with flight := s.mesh.flight.filter fun f => decide (f.flit.part ≠ p) } }

/-- The completion of a job journaled and sent (R341). In RECOVERY the stewards hold it, journaled only by the warm start
(R377, R378). -/
def State.complete (s : State) (p : Nat) (id : BitVec 32) (done : List Byte) : State :=
  if s.firm.mode = .recovery then
    { s with journal := s.journal.upd id fun j => { j with done := done } }
  else
    let s := { s with journal := { s.journal.upd id (fun j => { j with state := 2, done := done }) with
                                     marks := s.journal.marks.set p id } }
    s.post p ⟨0x42, 0, 0, done, none⟩

/-- The running job ends (R341, R360). -/
def State.endJob (s : State) (p : Nat) (st : Status) : State :=
  match s.running p with
  | none => s
  | some (r, j) =>
    let done := s.donePayload p r j st
    (s.discardRun p).complete p j.id done

/-- A journaled job that is not running ends: one that has not started, or one put back to the queue (R335, R342, R343, R485). -/
def State.endQueued (s : State) (j : Job) (st : Status) : State :=
  let x := (s.part j.part).getD {}
  let r : RunJob := match x.again with
    | some a => if a.id = j.id then { a with censusStart := s.census j.part } else { id := j.id, censusStart := s.census j.part }
    | none => { id := j.id, censusStart := s.census j.part }
  let s' := s.setPart j.part { x with meridian := j.start }
  let s := s.updPart j.part fun x => { x with again := x.again.filter fun a => decide (a.id ≠ j.id) }
  s.complete j.part j.id (s'.donePayload j.part r j st)

/-- JOB_DONE acknowledged: the entry is retired, its key remembered among the last 256 of the partition (R339, R341). -/
def State.retireJob (s : State) (id : BitVec 32) : State :=
  match s.journal.find id with
  | none => s
  | some j =>
    let mine := (s.journal.retired.filter fun e => decide (e.1 = j.part)) ++ [(j.part, j.key, j.id, j.seed)]
    let others := s.journal.retired.filter fun e => decide (e.1 ≠ j.part)
    { s with journal := { s.journal with jobs := s.journal.jobs.filter (fun e => decide (e.id ≠ id)),
                                         retired := others ++ mine.drop (mine.length - 256) } }

/-- Whether a job meets the conditions of R485 for a re-run. -/
def State.rerunnable (s : State) (p : Nat) (r : RunJob) (j : Job) (dataLoss : Bool) : Bool :=
  !(bit j.flags 4) && !r.lockstep && !dataLoss && decide (r.again < 3) &&
    match s.part p with
    | some x =>
      match x.program with
      | some g => bit g.flags 1
      | none => false
    | none => false

/-- IN_PLACE ranges restored from their copies (R343, R485). -/
def State.restoreCopies (s : State) (p : Nat) (r : RunJob) : State :=
  match s.part p with
  | some x => r.copies.foldl (fun s c => s.writeVa x c.1 c.2) s
  | none => s

/-- The running job of a partition fails: a pair freezes at the current step, and the job ends (R485, R486, R487). -/
def State.failJob (s : State) (p : Nat) (st : Status) : State :=
  let s := match s.running p, s.part p with
    | some (r, _), some x =>
      (match r.lockstep, x.pairing with
       | true, some pr => s.lsSend p pr (lsPayload pr.pairId 2 x.meridian.toNat 0 [])
       | _, _ => s)
    | _, _ => s
  s.endJob p st

/-- The running job of a partition meets a fault of class EC_PARTITION_FATAL (R485, R486). -/
def State.fatal (s : State) (p : Nat) (dataLoss : Bool) : State :=
  let s := s.updRun p fun r => { r with events := r.events + 1 }
  match s.running p with
  | none => s
  | some (r, j) =>
    if s.rerunnable p r j dataLoss then
      let s := (s.restoreCopies p r).discardRun p
      s.updPart p fun x => { x with again := some { id := r.id, again := r.again + 1, events := r.events, preempts := r.preempts,
                                                    restores := r.restores } }
    else s.failJob p (if dataLoss then .dataLoss else .aborted)

/-- The partitions with tiles on a die. -/
def State.partsOnDie (s : State) (die : Nat) : List Nat :=
  (s.geom.filter fun r => r.tiles.any fun t => decide (s.fuses.dieOf t = die)).map (·.part)

/-- A partition is at a job boundary (R383). -/
def State.atBoundary (s : State) (p : Nat) : Bool :=
  match s.part p with
  | some x => x.run.isNone
  | none => true

/-- Unpairing at the end of a pair by R281. -/
def State.unpair (s : State) (p : Nat) : State := s.updPart p fun x => { x with pairing := none }

end Sys2Proof.Machine
end

