-- ==== Sys2Proof/Machine/ErrorOps.lean ====
section
/-! DEFINITION. Detectors: placing an event, the ring, the leaky counter, the class actions, repairs, the Plate ring, device reset and
the end of every command (chapter 17; R390, R401, R473, R479). -/

namespace Sys2Proof.Machine

/-- One event of a detector. -/
structure Hit where
  det : Nat
  loc : Loc := {}
  part : Nat := 0
  /-- Syndrome bytes. -/
  syn : List Byte := []
  /-- Class, where it is not the detector's only one. -/
  cls : Option Nat := none
  /-- Frame, row, link or port number for the repair. -/
  place : Nat := 0
  /-- The instance's own unit count where its window counts no cycles (Table 17-8). -/
  units : Option Nat := none
  injected : Bool := false
  noRepair : Bool := false
  /-- A unit that fails a self-test is lasting at once (R481). -/
  lasting : Bool := false

/-- The die that a location's counters belong to. -/
def Loc.dieIx (l : Loc) : Nat := if l.die < 24 then l.die else 0

def Loc.at (px py : Nat) : Loc := { die := dieAt px py, px := px, py := py }

/-- Location of a scale-out port. -/
def portLoc (id : Nat) : Loc := { die := portDie id, unit := id }

/-- Location of a logical tile. -/
def State.locOf (s : State) (t : Nat) : Loc :=
  match s.place (t % 48) (t / 48) with
  | some p => Loc.at p.1 p.2
  | none => { die := s.fuses.dieOf t }

/-- The row or frame that tells apart the instances at one location (Table 17-8: 0x0501 per row, 0x0502 per frame). -/
def instPlace (det place : Nat) : Nat := if det = 0x0501 ∨ det = 0x0502 then place else 0

/-- The instance of a detector at a location and place. -/
def ErrState.instAt (e : ErrState) (det : Nat) (l : Loc) (place : Nat) : DetInst :=
  (e.insts.find? fun d => decide (d.det = det) && decide (d.loc = l) && decide (d.place = instPlace det place)).getD
    { det := det, loc := l, place := instPlace det place }

/-- The first instance of a detector at a location. -/
def ErrState.inst (e : ErrState) (det : Nat) (l : Loc) : DetInst :=
  (e.insts.find? fun d => decide (d.det = det) && decide (d.loc = l)).getD { det := det, loc := l }

def ErrState.setInst (e : ErrState) (d : DetInst) : ErrState :=
  if e.insts.any (fun x => decide (x.det = d.det) && decide (x.loc = d.loc) && decide (x.place = d.place)) then
    { e with insts := e.insts.map fun x => if x.det = d.det ∧ x.loc = d.loc ∧ x.place = d.place then d else x }
  else { e with insts := e.insts ++ [d] }

/-- An instance whose fault has been repaired: its level is 0, below the threshold (R474, R481). -/
def ErrState.calm (e : ErrState) (det : Nat) (l : Loc) (place : Nat) : ErrState :=
  { e with insts := e.insts.map fun d =>
      if d.det = det ∧ d.loc = l ∧ d.place = instPlace det place then { d with level := 0, sev := 0 } else d }

/-- Spillway counts events whose detail is dropped (R478). -/
def ErrState.dropped (e : ErrState) (n : Nat) : ErrState :=
  { e with spillDetail := BitVec.ofNat 40 (sat 40 (e.spillDetail.toNat + n)) }

/-- A record given the next RECORD_SEQ and put into the ring (R475, R476, R478). -/
def ErrState.ringWrite (e : ErrState) (r : ErrRec) : ErrState :=
  let falls := decide (e.ringFree = 257)
  { e with ring := e.ring ++ [{ r with seq := e.nextSeq }], nextSeq := e.nextSeq + 1,
           fullEpisodes := if falls then BitVec.ofNat 8 (sat 8 (e.fullEpisodes.toNat + 1)) else e.fullEpisodes }

/-- What a new record brings: EVENT ERROR for one of class EC_CONTAINED or above (R476), a count in EVENTS for one of a lower class that is
charged to a partition (Table 10-3). -/
def State.errorEvent (s : State) (r : ErrRec) : State :=
  if r.cls < 2 then s.updRun r.part fun x => { x with events := x.events + 1 }
  else
    let detail := beBytes 2 r.det ++ beBytes 1 r.cls ++ beBytes 1 r.part
    let s := s.event 0 0x0004 r.part detail
    if r.part ≠ 0 && s.host.boxes.has r.part then s.event r.part 0x0004 r.part detail else s

/-- leaky_event of R481: whether the event is lasting, and the new level and mark. -/
def leakyEvent (level mark now t w : Nat) : Bool × Nat × Nat :=
  if t = 1 then (true, level, mark)
  else
    let step := w / t
    let n := if w = 0 then 0 else (now - mark) / step
    let level := if w = 0 then level else if level ≤ n then 0 else level - n
    let mark := if w = 0 then mark else mark + n * step
    (decide (t ≤ level + 1), level + 1, mark)

/-- place_event of R477 for a record built with COUNT 1: the new error state, and the record when one was written. -/
def ErrState.place (e : ErrState) (d : DetInst) (r : ErrRec) : ErrState × Option ErrRec :=
  let d := { d with total := d.total + 1, sev := r.sev }
  let isOpen := fun (o : ErrRec) =>
    decide (d.openRec = some o.seq) && decide (o.count < 2 ^ 32 - 1) && decide (o.cls = r.cls) && decide (o.sev = r.sev)
  if e.ring.any isOpen then
    let ring := e.ring.map fun (o : ErrRec) =>
      if isOpen o then { o with count := o.count + 1, last := r.last, flags := o.flags ||| 1 } else o
    ((({ e with ring := ring } : ErrState).setInst d).dropped 1, none)
  else if 0 < d.held then
    ((e.setInst { d with held := d.held + 1, heldLast := r.last }).dropped 1, none)
  else if (if 3 ≤ r.cls then 0 else 256) < e.ringFree then
    let r := { r with seq := e.nextSeq }
    ((e.setInst { d with openRec := some e.nextSeq }).ringWrite r, some r)
  else (e.setInst { d with held := 1, heldRec := some r, heldLast := r.last }, none)

/-- The record of an event, before it has a RECORD_SEQ (Table 17-5). -/
def State.mkRec (s : State) (h : Hit) (cls sev : Nat) : ErrRec :=
  let ts := s.localTs (detDomain h.det) h.loc.dieIx
  let job := match s.running h.part with
    | some (r, _) => r.id
    | none => 0xFFFFFFFF
  { det := h.det, cls := cls, sev := sev, count := 1, first := ts, last := ts, domain := detDomain h.det, loc := h.loc, part := h.part,
    flags := if h.injected then 4 else 0, meridian := if h.part = 0 then 0 else s.meridian h.part, syn := fitBytes 16 h.syn, seq := 0,
    job := if h.part = 0 then 0xFFFFFFFF else job }

/-- The moment of the leaky counter of an instance, in its own unit (R481). -/
def State.leakyNow (s : State) (h : Hit) : Nat :=
  match h.units with
  | some u => u
  | none => s.localTs (detDomain h.det) h.loc.dieIx

/-- An event counted, recorded and judged: the new state, and whether it is lasting (R477, R481). -/
def State.record (s : State) (h : Hit) : State × Bool :=
  let d := s.err.instAt h.det h.loc h.place
  let cls := h.cls.getD (detClass h.det)
  let leak : Bool × Nat × Nat :=
    if h.noRepair then (false, d.level, d.mark)
    else if h.lasting then (true, d.level, d.mark)
    else if h.det = 0x0402 ∧ cls = 4 then (false, d.level, d.mark)
    else
      match detThreshold h.det with
      | some (t, w) => leakyEvent d.level d.mark (s.leakyNow h) t w
      | none => (false, d.level, d.mark)
  let d := { d with level := leak.2.1, mark := leak.2.2 }
  let r := s.mkRec h cls (if leak.1 then 1 else 0)
  let e := s.err.place d r
  let s := { s with err := e.1 }
  (match e.2 with
    | some r => s.errorEvent r
    | none => s, leak.1)

/-- The class action of an event (R472, R473, R485). -/
def State.classAction (s : State) (h : Hit) : State :=
  match h.cls.getD (detClass h.det) with
  | 3 => s.fatal h.part (decide (h.det ∈ [0x0502, 0x0506, 0x0D07]))
  | 4 =>
    if h.det ∈ [0x0504, 0x0E02, 0x0E04] then s
    else if h.det ∈ [0x0D05, 0x0D06] then { s with trust := { s.trust with bootLocked := true } }
    else if h.det = 0x0E09 then { s with resetReq := some .refLoss }
    else if h.det = 0x0E0B then { s with resetReq := some .limiterFault }
    else { s with resetReq := some .deviceFatal }
  | _ => s

/-- The tile at the other end of an on-die link (R199, Table 17-8, 0x0401 and 0x0402). -/
def Loc.farEnd (l : Loc) : Option Loc :=
  let q := match Config.linkDir l.px l.py l.unit % 4 with
    | 0 => (l.px, l.py + 1)
    | 1 => (l.px + 1, l.py)
    | 2 => (l.px, l.py - 1)
    | _ => (l.px - 1, l.py)
  if l.px = 0xFF ∨ q = (l.px, l.py) ∨ dieAt q.1 q.2 ≠ l.die then none else some { Loc.at q.1 q.2 with unit := l.unit }

/-- The repairs that a lasting fault brings on (Table 17-8): both ends of an on-die link, and otherwise one. -/
def State.repairsOf (s : State) (h : Hit) : List RepairDue :=
  let here : RepairDue := ⟨h.det, h.loc, detAction h.det, h.part, h.place, false⟩
  if h.det = 0x0401 ∨ h.det = 0x0402 then
    here :: (match h.loc.farEnd with
      | some l => [⟨h.det, l, 1, s.partAt l.px l.py, h.place, false⟩]
      | none => [])
  else [here]

/-- A detector notices an event: it is counted, recorded, acted on by its class, and its repair falls due when it is lasting. -/
def State.raise (s : State) (h : Hit) : State :=
  let h : Hit := match s.err.injecting with
    | some b => { h with injected := true, noRepair := b }
    | none => h
  let r := s.record h
  let s := r.1.classAction h
  if r.2 && decide (detAction h.det ≠ 0) then
    { s with err := { s.err with due := s.err.due ++ s.repairsOf h } }
  else s

/-- A record that is no event of its instance: a repair applied, or a fault no repair exists for (R474, R477, R482). It waits
when no entry at all is free. -/
def State.extraRecord (s : State) (d : RepairDue) (sev flags : Nat) (syn : List Byte) : State :=
  let r := { s.mkRec { det := d.det, loc := d.loc, part := d.part, syn := syn } (detClass d.det) sev with flags := flags }
  let r := { r with meridian := 0, job := 0xFFFFFFFF }
  if s.err.ringFree = 0 then { s with err := { s.err with waiting := s.err.waiting ++ [r] } }
  else ({ s with err := s.err.ringWrite r }).errorEvent r

/-- A repair that was applied: its record, EVENT REPAIR, and the level of its instance back to 0 (R481, R482). -/
def State.repaired (s : State) (d : RepairDue) (entry : BitVec 32) : State :=
  let s := s.extraRecord d 2 8 (leBytes 4 entry.toNat ++ leBytes 1 d.action)
  let s := { s with err := s.err.calm d.det d.loc d.place }
  s.event 0 0x0005 d.part (beBytes 2 d.det ++ beBytes 1 d.action ++ [0] ++ beBytes 4 entry.toNat ++ beBytes 1 d.loc.die ++
    beBytes 1 d.loc.px ++ beBytes 1 d.loc.py ++ [0] ++ beBytes 2 d.loc.unit ++ beBytes 1 d.part)

/-- A repair that cannot be applied (R482). -/
def State.unrepairable (s : State) (d : RepairDue) : State := s.extraRecord d 3 0 []

/-! ## The two copies of the Almanac (R488) -/

/-- A persistent register is read: the first copy that passes its check gives it, and the other is rewritten (0x0D11). With none the register
is lost (0x0D12), and what it reads from then on is free. -/
def State.almCheck (s : State) (n : Nat) : State :=
  let r := s.preg n
  let l : Loc := { die := 0x40, unit := n }
  let put := fun (s : State) (q : PReg) => ({ s with firm := { s.firm with pregs := s.firm.pregs.set n q } } : State)
  if r.bad0 && r.bad1 then
    let v := s.takeFree
    let w := v.2.takeFree
    (put w.2 { value := v.1, wcount := w.1.setWidth 32 }).raise { det := 0x0D12, loc := l }
  else if r.bad0 || r.bad1 then (put s { r with bad0 := false, bad1 := false }).raise { det := 0x0D11, loc := l }
  else s

/-- Persistent registers first to first + n - 1 are read. -/
def State.almRead (s : State) (first n : Nat) : State := (List.range n).foldl (fun s i => s.almCheck (first + i)) s

/-- The number by which the location of 0x0D11 and 0x0D12 names a journal entry: those below 512 name registers (log 136). -/
def journalUnit (i : Nat) : Nat := 512 + i

/-- A journal entry is read: rewritten from its good copy, or lost (R345, R488). -/
def State.jobCheck (s : State) (j : Job) : State :=
  let l : Loc := { die := 0x40, unit := journalUnit (s.journal.jobs.idxOf j) }
  if j.bad0 && j.bad1 then
    ({ s with journal := { s.journal with jobs := s.journal.jobs.filter fun e => decide (e.id ≠ j.id) } } : State).raise { det := 0x0D12, loc := l }
  else if j.bad0 || j.bad1 then ({ s with journal := s.journal.upd j.id id } : State).raise { det := 0x0D11, loc := l }
  else s

/-- The journal is read. -/
def State.journalRead (s : State) : State := s.journal.jobs.foldl State.jobCheck s

/-- Copies of the item that a location names fail: both, or the first (R490). -/
def State.almFail (s : State) (unit : Nat) (both : Bool) : State :=
  if unit < 512 then { s with firm := { s.firm with pregs := s.firm.pregs.set unit { s.preg unit with bad0 := true, bad1 := both } } }
  else
    match s.journal.jobs[unit - 512]? with
    | some j => { s with journal := { s.journal with jobs := s.journal.jobs.map fun e =>
        if e.id = j.id then { e with bad0 := true, bad1 := both } else e } }
    | none => s

/-- An entry appended to the repair list in ascending order; with all 208 in use it holds for this BOOT_EPOCH (R483, R484). -/
def State.appendRepair (s : State) (e : BitVec 32) : State :=
  let full := (List.range 208).find? fun i =>
    let v := (s.preg (152 + i / 2)).value
    decide ((if i % 2 = 0 then BitVec.extractLsb' 0 32 v else BitVec.extractLsb' 32 32 v) = 0)
  match full with
  | some i =>
    let v := (s.preg (152 + i / 2)).value
    s.pregWrite (152 + i / 2) (if i % 2 = 0 then (v &&& 0xFFFFFFFF00000000) ||| e.setWidth 64
      else (v &&& 0xFFFFFFFF) ||| (e.setWidth 64 <<< 32))
  | none =>
    ({ s with err := { s.err with epochRepairs := s.err.epochRepairs ++ [e] } }).raise { det := 0x0F03, loc := { die := 0x40 } }

/-- A retired tile goes into the repair list at the fault (R25; DESIGN CHOICE, log 117: the manual leaves open whether the list is written then
or at the boundary). The map stays as it was for every partition whose job runs in that die column until its next job boundary. -/
def State.listTile (s : State) (d : RepairDue) : State :=
  let e := tileEntry d.loc.px d.loc.py
  if d.action ≠ 1 ∨ d.loc.px = 0xFF ∨ !(s.enabled d.loc.px d.loc.py) then s
  else
    let held := (s.geom.filter fun r => !(s.atBoundary r.part) &&
      r.tiles.any fun t => decide (t % 48 = d.loc.px) && decide (s.fuses.dieOf t = dieAt d.loc.px d.loc.py)).map fun r => (r.part, e)
    { s with err := { s.err with lag := s.err.lag ++ held } }.appendRepair e

/-- Jobs of partitions that hold an unavailable quad fail as of class EC_PARTITION_FATAL, one that R485 has just put back to the queue too;
none is run again, since the partition starts no further job (R26, R486, R487). The count of EVENTS takes the loss of the quad as one. -/
def State.endOnDown (s : State) : State :=
  s.geom.foldl (fun s r =>
    if !(s.rectDown r) then s
    else if (s.running r.part).isSome then (s.updRun r.part fun x => { x with events := x.events + 1 }).failJob r.part .aborted
    else
      match (s.part r.part).bind fun x => x.again.bind fun a => s.journal.find a.id with
      | some j => s.endQueued j .aborted
      | none => s) s

/-- A stack declared lost (R233, R234): its bytes are gone; its partitions without parity, or a second loss in its group, fail their jobs. -/
def State.loseStack (s : State) (site : Nat) : State :=
  let second := decide (site / 8 < 6) && s.fuses.hasGroup (site / 8) &&
    (List.range 8).any fun k => decide (8 * (site / 8) + k ≠ site) && (s.hbm.stackTab.getD (8 * (site / 8) + k) {}).lost
  let h := { s.hbm with stackTab := s.hbm.stackTab.set site { s.hbm.stackTab.getD site {} with lost := true },
                        mem := s.hbm.mem.clear (site * 2 ^ 36) (2 ^ 36) }
  let s := ({ s with hbm := h }).raise { det := 0x0504, loc := { die := 0xFF, unit := site } }
  let hitPage := fun (x : Part) => x.ptes.any fun e =>
    pteValid e.2 && (if ptePar e.2 then second && decide (pteFrame e.2 / 2 ^ 18 = site / 8) else decide (pteFrame e.2 / 2 ^ 15 = site))
  s.parts.foldl (fun s e =>
    if hitPage e.2 then s.raise { det := 0x0506, loc := { die := 0xFF, unit := site }, part := e.1 } else s) s

/-- Stack loss as a repair (Table 17-9, action 7). -/
def State.giveUpStack (s : State) (d : RepairDue) (site : Nat) : State :=
  if (s.hbm.stackTab.getD site {}).lost then s
  else
    let e := repairEntry 3 site
    ((s.loseStack site).appendRepair e).repaired { d with action := 7, det := 0x0504 } e

/-- A stitch link disabled (R215). -/
def State.disableLink (s : State) (n : Nat) : State :=
  { s with mesh := { s.mesh with links := s.mesh.links.set n { s.mesh.links.getD n {} with disabled := true } } }

/-- STITCH entry of a link number (Tables 17-10 and 8-3, R336). -/
def stitchEntry (n : Nat) : BitVec 32 :=
  let e := n / 12
  let j := n % 12
  if e < 20 then repairEntry 4 (e * 256 + j)
  else if e < 38 then repairEntry 4 (((e - 20) / 3 * 4 + (e - 20) % 3) * 256 + 1 * 64 + j)
  else if n - 456 < 4 then repairEntry 4 (1 * 256 + 2 * 64 + 8 + (n - 456)) else repairEntry 4 (2 * 256 + 2 * 64 + (n - 460))

/-- A page's blocks lie, wholly or in part, in a frame (R231, R236). -/
def pageMeets (e : Word) (f : Nat) : Bool :=
  pteValid e && if ptePar e then decide (pteFrame e / 2 ^ 18 = f / 2 ^ 18 ∧ pteFrame e % 2 ^ 15 = f % 2 ^ 15) else decide (pteFrame e = f)

/-- Whether a repair's moment has come (Table 17-9). A retirement is complete once no partition's job holds to the old map
(R25); a page that is being changed is retired after its change (R240). -/
def State.dueNow (s : State) (d : RepairDue) : Bool :=
  match d.action with
  | 1 => !(s.err.lag.any fun e => decide (e.2 = tileEntry d.loc.px d.loc.py))
  | 6 => s.parts.all fun q => q.2.ptes.all fun e => !(pageMeets e.2 d.place && pteLock e.2)
  | 8 => s.parts.all fun e => !(e.2.share.any fun q => decide (q.1 = d.place)) || e.2.run.isNone
  | _ => true

/-- The mapped pages of a frame: partition, virtual page, entry. -/
def State.framePages (s : State) (f : Nat) : List (Nat × Nat × Word) :=
  s.parts.flatMap fun q => (q.2.ptes.filter fun e => pageMeets e.2 f).map fun e => (q.1, e.1, e.2)

/-- One page moved to a free frame of its kind by the sequence of R240: no ferry keeps an entry for it. Between two commands no ferry has a
request open, so each acknowledges at once (DESIGN CHOICE, log 130). -/
def State.relocate (s : State) (p vpn : Nat) (e : Word) : Option State :=
  match State.takeFrames (ptePar e) p 1 0 s with
  | some (g :: _, t) =>
    let e' := mkPte true (pteGen e) (ptePar e) (pteWr e) g
    let t := { t with hbm := { t.hbm.movePage e e' with owned := t.hbm.owned.erase (frameKey (ptePar e) (pteFrame e)) } }
    let t := t.updPart p fun x => { x with ptes := x.ptes.set vpn e' }
    some (t.updTiles (t.tilesOf p) fun x => { x with ferry := { x.ferry with tlb := x.ferry.tlb.filter fun y => decide (y.1 ≠ vpn) } })
  | _ => none

/-- A frame of a first-touch reserve, of page tables or of a program gives way to another. -/
def State.swapFrame (s : State) (f : Nat) : Option State :=
  match s.parts.find? fun q => (!(bit q.2.flags 0) && q.2.reserve.contains f) || q.2.tables.contains f with
  | none => some s
  | some q =>
    match State.takeFrames false (s.hbm.owned.getD (frameKey false f) 0) 1 0 s with
    | some (g :: _, t) =>
      let put := fun (l : List Nat) => l.map fun h => if h = f then g else h
      let t := t.freeFrames false [f]
      some (t.updPart q.1 fun x =>
        { x with reserve := if bit x.flags 0 then x.reserve else put x.reserve, tables := put x.tables,
                 level1 := if x.tables.contains f then firstLevel1 x.vaLimit (put x.tables) else x.level1 })
    | _ => none

/-- A page retired: everything a frame holds moves to free frames, and the frame leaves the pool (Table 17-9, action 6). A frame set of parity
pages moves with all its pages (R231, R240). -/
def State.retireFrame (s : State) (d : RepairDue) : State :=
  let f := d.place
  let e := repairEntry 2 f
  let t : State := { s with hbm := { s.hbm with retired := f :: s.hbm.retired } }
  match ((s.framePages f).foldl (fun (o : Option State) q => o.bind fun u => u.relocate q.1 q.2.1 q.2.2) (some t)).bind fun u => u.swapFrame f with
  | some u => (u.appendRepair e).repaired d e
  | none => s.unrepairable d

/-- One repair applied (Table 17-9). -/
def State.applyRepair (s : State) (d : RepairDue) : State :=
  match d.action with
  | 1 =>
    let e := tileEntry d.loc.px d.loc.py
    if d.loc.px = 0xFF then s.unrepairable d
    else (s.repaired d e).endOnDown
  | 2 =>
    let l := s.mesh.links.getD d.place {}
    if l.lanes < 2 then
      let s := { s with mesh := { s.mesh with links := s.mesh.links.set d.place { l with lanes := l.lanes + 1 } } }
      (s.raise { det := 0x0404, loc := d.loc, place := d.place }).repaired d 0xFFFFFFFF
    else ((s.disableLink d.place).appendRepair (stitchEntry d.place)).repaired { d with action := 3 } (stitchEntry d.place)
  | 3 => ((s.disableLink d.place).appendRepair (stitchEntry d.place)).repaired d (stitchEntry d.place)
  | 4 =>
    let site := d.place / 2 ^ 36
    let k := s.hbm.stackTab.getD site {}
    if Config.rowSpare d.place k.repaired then
      let s := { s with hbm := { s.hbm with stackTab := s.hbm.stackTab.set site { k with repaired := d.place :: k.repaired } } }
      (s.raise { det := 0x0503, loc := d.loc, part := d.part }).repaired d 0xFFFFFFFF
    else
      let s := s.retireFrame { d with action := 6, place := d.place / 2 ^ 21 }
      { s with err := s.err.calm d.det d.loc d.place }
  | 5 =>
    let k := s.hbm.stackTab.getD d.loc.unit {}
    if Config.laneSpare d.loc.unit k.phyLanes then
      ({ s with hbm := { s.hbm with stackTab := s.hbm.stackTab.set d.loc.unit { k with phyLanes := k.phyLanes + 1 } } }).repaired d 0xFFFFFFFF
    else s.giveUpStack d d.loc.unit
  | 6 =>
    let site := d.place / 2 ^ 15
    let now := s.localTs (detDomain 0x0502) d.loc.dieIx
    let recent := now :: ((s.err.stackLasting.getD site []).filter fun t => decide (now < t + 2 ^ 44))
    let s := { s with err := { s.err with stackLasting := s.err.stackLasting.set site recent } }
    let s := s.retireFrame d
    if 4 ≤ recent.length then s.giveUpStack d site else s
  | 8 =>
    let e := repairEntry 5 d.place
    let p := s.trib.ports.getD d.place {}
    let s := { s with trib := { s.trib with ports := s.trib.ports.set d.place { p with disabled := true, up := false } } }
    (s.appendRepair e).repaired d e
  | 9 =>
    let other := s.host.ports.getD (1 - d.place) {}
    if other.up && !other.disabled then
      let e := repairEntry 5 (0xF0 + d.place)
      let p := s.host.ports.getD d.place {}
      let s := { s with host := { s.host with ports := s.host.ports.set d.place { p with disabled := true, up := false } } }
      (s.appendRepair e).repaired d e
    else s.unrepairable d
  | 10 =>
    let e := repairEntry 6 d.loc.unit
    let s := { s with ent := { s.ent with excluded := d.loc.unit :: s.ent.excluded } }
    (s.appendRepair e).repaired d e
  | 11 => s.repaired d 0xFFFFFFFF
  | 12 => s.updDie d.loc.die fun x => { x with vStep := x.vStep + 1 }
  | 13 =>
    let s := { s with err := { s.err with withdrawn := d.loc.die :: s.err.withdrawn } }
    (s.repaired d 0xFFFFFFFF).endOnDown
  | _ => s

/-- The retirements that have fallen due stand in the list, each once; those of tiles already retired are dropped (R25). -/
def State.listTiles (s : State) : State :=
  s.err.due.foldl (fun s d =>
    if d.action = 1 ∧ d.loc.px ≠ 0xFF ∧ !d.listed then
      let on := s.enabled d.loc.px d.loc.py
      let s := s.listTile d
      { s with err := { s.err with due := if on then s.err.due.map fun x => if x = d then { x with listed := true } else x
                                          else s.err.due.erase d } }
    else s) s

/-- A partition at a job boundary takes the map as the list gives it (R25, R26). -/
def State.takeMap (s : State) : State :=
  if s.err.lag.any fun e => s.atBoundary e.1 then
    { s with err := { s.err with lag := s.err.lag.filter fun e => !(s.atBoundary e.1) } }.endOnDown
  else s

/-- Repairs whose moment has come, applied; a repair can bring on another (R482). -/
def State.runDue : Nat → State → State
  | 0, s => s
  | n + 1, s =>
    if s.err.due = [] then s
    else
      let s := s.listTiles.takeMap
      match s.err.due.find? s.dueNow with
      | none => s
      | some d =>
        let s := { s with err := { s.err with due := s.err.due.erase d } }
        State.runDue n (s.applyRepair d)

/-! ## Deferred tests -/

/-- The report of a deferred test or calibration on one partition (R365, R468). -/
def State.testDone (s : State) (d : Deferred) (p : Nat) (st : Status) : State :=
  s.event 0 0x0003 p (beBytes 2 st.code ++ [0, 0] ++ beBytes 4 d.id.toNat ++ beBytes 4 d.passed ++ beBytes 4 d.failed)

/-- PART_DESTROY ends a partition's part of every deferred test (R492). -/
def State.endDeferred (s : State) (p : Nat) : State :=
  let mine := s.err.deferred.filter fun d => d.parts.contains p
  let left := s.err.deferred.map fun (d : Deferred) => { d with parts := d.parts.erase p }
  mine.foldl (fun s d => s.testDone d p .aborted)
    { s with err := { s.err with deferred := left.filter fun d => !d.parts.isEmpty } }

/-! ## Held counts -/

/-- Rank of an instance in the order of R477: DET_ID, then DIE, PHYS_Y, PHYS_X, UNIT. -/
def DetInst.rank (d : DetInst) : Nat := ((((d.det * 256 + d.loc.die) * 256 + d.loc.py) * 256 + d.loc.px) * 65536) + d.loc.unit

/-- The holding instance that writes next. -/
def ErrState.nextHeld (e : ErrState) : Option DetInst :=
  (e.insts.filter fun d => decide (0 < d.held)).foldl (fun b d =>
    match b with
    | none => some d
    | some x => if d.rank < x.rank then some d else some x) none

/-- Held counts written as HELD records while entries suffice: any entry when flush is set, else by the rule of R477. -/
def State.writeHeld (flush : Bool) : Nat → State → State
  | 0, s => s
  | n + 1, s =>
    match s.err.waiting with
    | r :: rest =>
      if s.err.ringFree = 0 then s
      else State.writeHeld flush n (({ s with err := { s.err with waiting := rest }.ringWrite r }).errorEvent r)
    | [] =>
      match s.err.nextHeld with
      | none => s
      | some d =>
        let r := d.heldRec.getD (s.mkRec { det := d.det, loc := d.loc } 0 0)
        if (if flush || decide (3 ≤ r.cls) then 0 else 256) < s.err.ringFree then
          let r := { r with count := min d.held (2 ^ 32 - 1), last := d.heldLast,
                            flags := r.flags ||| 2 ||| (if 1 < d.held then 1 else 0) }
          let d' := { d with held := d.held - r.count, heldRec := if d.held - r.count = 0 then none else d.heldRec,
                             openRec := some s.err.nextSeq }
          State.writeHeld flush n (({ s with err := (s.err.setInst d').ringWrite r }).errorEvent r)
        else s

/-- The flush of R479 before an orderly kind of reset. -/
def State.flushHeld (s : State) : State :=
  let s := State.writeHeld true (s.err.insts.length + s.err.waiting.length + 1) s
  let left := s.err.heldNow
  { s with err := { (s.err.dropped left) with resetDiscard := s.err.resetDiscard || decide (0 < left), waiting := [] } }

/-! ## The Plate ring -/

/-- A trace point of class ALWAYS logged in the Plate ring (R390, R391). A record that would wrap onto a quarter not yet mirrored
is dropped, and the next record carries GAP. -/
def State.tracePoint (s : State) (tp part source : Nat) (data : List Byte) : State :=
  let len := 16 + (data.length + 7) / 8 * 8
  if 65536 * s.firm.mirrored + 262144 < s.firm.plateNext + len then { s with firm := { s.firm with plateGap := true } }
  else
    let ts := s.localTs 2 0
    let rec_ := leBytes 2 len ++ leBytes 2 tp ++ leBytes 1 2 ++ leBytes 1 part ++ leBytes 1 source ++
      leBytes 1 (if s.firm.plateGap then 2 else 0) ++ leBytes 8 ts ++ fitBytes (len - 16) data
    { s with firm := { s.firm with plate := s.firm.plate.write s.firm.plateNext rec_, plateNext := s.firm.plateNext + len,
                                   plateGap := false } }

/-! ## Device reset -/

/-- Stitch links that the repair list keeps down (R483). -/
def State.bootLinks (s : State) : Tab Stitch :=
  ((List.range 464).filter fun n => s.repairList.contains (stitchEntry n)).map fun n => (n, { disabled := true })

/-- The journal after a device reset (R344): jobs that had no completion await a restore. -/
def Job.atReset (j : Job) : Job :=
  if j.state = 2 then j else { j with state := 3, wasRunning := j.wasRunning || decide (j.state = 1), done := [] }

/-- Instances whose windows count BOOT_EPOCHs keep their level over a reset (Table 17-8). -/
def DetInst.atReset (d : DetInst) : DetInst := { det := d.det, loc := d.loc, place := d.place, level := d.level, mark := d.mark }

/-- The resets that the die stewards flush held counts before (R479). -/
def Cause.flushes : Cause → Bool
  | .resetN | .orderly | .deviceFatal | .limiterFault => true
  | _ => false

/-- A device reset (R9, R344, R401, R447, R473, R476, R479, R500): what survives is the fuses, the Almanac, the sealed keys, the
always-on ring, and the queue of commands. Every persistent register keeps its value at the loss of 12 V AUX too, REPAIR and EPHEMERIS
among them, although Tables 0-2 and 18-5 say that an RWS field is lost then (DESIGN CHOICE, log 116). -/
def State.deviceReset (c : Cause) (s : State) : State :=
  let s := if c.flushes then ((s.sendBye 0).sendLeave 0 0).flushHeld else s
  let lost := !c.flushes && decide (0 < s.err.heldNow)
  let off := decide (c = .powerOn)
  { pending := s.pending, fuses := s.fuses,
    journal := { s.journal with jobs := s.journal.jobs.map Job.atReset },
    mesh := { links := s.bootLinks },
    hbm := { stackTab := s.hbm.stackTab.mapVals fun k => { repaired := k.repaired } },
    trib := { sent := s.trib.sent, adverts := s.trib.adverts },
    host := { sent := s.host.sent },
    firm := { pregs := s.firm.pregs, loaderBank := s.firm.loaderBank },
    trust := { deviceSecret := s.trust.deviceSecret, identity := s.trust.identity, sealKey := s.trust.sealKey, cert := s.trust.cert,
               rotFirmware := s.trust.rotFirmware },
    ent := { drawn := s.ent.drawn, excluded := s.ent.excluded },
    err := { insts := (s.err.insts.filter fun d => decide (d.det ∈ [0x0801, 0x0802, 0x0803])).map DetInst.atReset,
             ring := if off then [] else s.err.ring, nextSeq := if off then 0 else s.err.nextSeq,
             spillDetail := if off then 0 else s.err.spillDetail, fullEpisodes := if off then 0 else s.err.fullEpisodes,
             resetDiscard := !off && (s.err.resetDiscard || lost), nextInj := s.err.nextInj, nextTest := s.err.nextTest },
    power := { resetCause := (c.code).setWidth 32, trip := decide (c = .thermTrip), auxUp := !off, refUp := decide (c ≠ .refLoss),
               railsOn := !(off || decide (c = .thermTrip)), thermTripN := decide (c ≠ .thermTrip), planAt := s.power.planAt,
               slows := s.power.slows },
    clock := { ref := 0, life := if off then 0 else s.clock.life }, free := s.free }

/-! ## The end of a command -/

/-- Everything a command leaves to its end: repairs that are due (R482), then the device reset it called for (R473). -/
def State.settleAll (t : State) : State :=
  let u := State.runDue 8 t
  match u.resetReq with
  | some c => u.deviceReset c
  | none => u

/-- The end of a command that may change which partitions exist: the queue and the fuses are those before it (R23), the
rectangles those the command left, unless a device reset ended them (R28, R344). -/
def finishGeom (s t : State) : State :=
  let u := t.settleAll
  { u with pending := s.pending, fuses := s.fuses, geom := if u.power.inReset then [] else t.geom }

/-- The end of every other command: the rectangles too are those before it, unless a device reset ended them (R28, R344). -/
def finish (s t : State) : State :=
  let u := t.settleAll
  { u with pending := s.pending, fuses := s.fuses, geom := if u.power.inReset then [] else s.geom }

end Sys2Proof.Machine
end

