-- ==== Sys2Proof/Machine/Trace.lean ====
section
/-! DEFINITION. The trace unit of a tile: contributions to the step digest, the step ring and the instruction ring (R273-R276). -/

namespace Sys2Proof.Machine

/-- UNIT codes (Table 10-5). -/
def unitNone : Nat := 0
def unitDrain : Nat := 1
def unitVector : Nat := 2
def unitDraw : Nat := 3
def unitChain : Nat := 4
def unitSeq : Nat := 5
def unitFerry : Nat := 6

/-- A contribution: CRC-64 of the identity and the block's 256 bytes (R273). -/
def contribution (unit tile iseq pos : Nat) (data : List Byte) : Word :=
  BitVec.ofNat 64 (crc64 0 (leBytes 1 unit ++ [0] ++ leBytes 2 tile ++ leBytes 4 iseq ++ leBytes 8 pos ++ data))

/-- The 256-byte blocks that a list of writes touches, each once. -/
def touchedBlocks (ws : List (Nat × List Byte)) : List Nat :=
  (ws.flatMap fun w =>
    if w.2.isEmpty then []
    else (List.range ((w.1 + w.2.length - 1) / 256 - w.1 / 256 + 1)).map fun k => w.1 / 256 + k).eraseDups

/-- Contributions of the blocks that writes touch; POS is the block index from a base line, plus a mark. Bytes that are not
written count as zero (R273). POS wraps at 64 bits. -/
def contribSum (unit tile iseq base mark : Nat) (ws : List (Nat × List Byte)) : Word :=
  let m := Mem.writeAll [] ws
  (touchedBlocks ws).foldl (fun n b => n + contribution unit tile iseq (b + 2 ^ 64 - base * 64 / 256 + mark) (m.read (256 * b) 256)) 0

/-- A save or load handler runs, whose writes are not digested and whose instructions are not counted (R255, R273). -/
def Part.handler (x : Part) : Bool :=
  (match x.hold with
   | .stopping _ why _ => decide (why = 3)
   | _ => false) ||
  match x.run with
  | some r => r.loading
  | none => false

/-- The trace level that applies to what a tile of a partition writes (R273). -/
def State.traceLevel (s : State) (p : Nat) : Nat :=
  match s.part p with
  | some x => if x.handler then 0 else x.level
  | none => 0

/-- Contribution of writes at the level in force. -/
def State.contrib (s : State) (p t unit iseq base mark : Nat) (ws : List (Nat × List Byte)) : Word :=
  if 1 ≤ s.traceLevel p then contribSum unit t iseq base mark ws else 0

/-- EYEPIECE fields (Table 10-7). -/
def eyeLevel (e : Word) : Nat := bits e.toNat 1 0
def eyeStepWr (e : Word) : Nat := bits e.toNat 11 4
def eyeInstrWr (e : Word) : Nat := bits e.toNat 21 12
def eyeFrom (e : Word) : Nat := bits e.toNat 63 32

def eyeMake (from_ instrWr stepWr level : Nat) : Word :=
  BitVec.ofNat 64 (from_ % 2 ^ 32 * 2 ^ 32 + instrWr % 2 ^ 10 * 2 ^ 12 + stepWr % 2 ^ 8 * 2 ^ 4 + level % 4)

/-- An entry of the instruction ring (R276), written when the instruction completes. -/
def TileState.instrEntry (x : TileState) (meridian : Word) (iseq unit : Nat) (sum : Word) : TileState :=
  let e := x.eyepiece
  if eyeLevel e = 2 ∧ eyeFrom e ≤ iseq then
    let n := eyeInstrWr e
    { x with sram := x.sram.write (0xFC40 * 64 + 32 * n)
               (leBytes 8 meridian.toNat ++ leBytes 4 iseq ++ leBytes 1 unit ++ [0, 0, 0] ++ leBytes 8 sum.toNat ++ List.replicate 8 0),
             eyepiece := eyeMake (eyeFrom e) ((n + 1) % 896) (eyeStepWr e) 2 }
  else x

/-- An instruction completes: its contribution joins TILE_ACC and its entry the instruction ring (R273, R276). -/
def State.completed (s : State) (p t iseq unit : Nat) (sum : Word) : State :=
  if s.traceLevel p = 0 then s
  else s.updTile t fun x => { x with acc := x.acc + sum }.instrEntry (s.meridian p) iseq unit sum

/-- A tile at a step boundary: the step ring takes MERIDIAN and TILE_ACC, which restarts at 0, and ISEQ counts from 0 (R273,
R276). -/
def TileState.boundary (x : TileState) (meridian : Word) (level : Nat) : TileState :=
  let x :=
    if level = 0 then x
    else
      let e := x.eyepiece
      { x with sram := x.sram.write (0xFC00 * 64 + 16 * eyeStepWr e) (leBytes 8 meridian.toNat ++ leBytes 8 x.acc.toNat),
               eyepiece := eyeMake (eyeFrom e) (eyeInstrWr e) (eyeStepWr e + 1) (eyeLevel e) }
  { x with acc := 0, iseq := 0 }

/-- The die steward writes LEVEL and ISEQ_FROM (R276). -/
def TileState.setLevel (level from_ : Nat) (x : TileState) : TileState :=
  { x with eyepiece := eyeMake from_ (eyeInstrWr x.eyepiece) (eyeStepWr x.eyepiece) level }

end Sys2Proof.Machine
end

