-- ==== Sys2Proof/Machine/VectorUnit.lean ====
section
/-! DEFINITION. What the vector engine of one tile computes: VOP (R357) and VRAND (R122-R125). -/

namespace Sys2Proof.Machine

/-- Memory writes and flags of a vector instruction. -/
structure VectorOut where
  writes : List (Nat × List Byte) := []
  flags : Flags := {}
  deriving DecidableEq, Repr

/-- Operand words of a VOP (Table 12-22). -/
structure VopWords where
  aFmt : Fmt
  bFmt : Fmt
  cvt : Cvt
  aMx : Bool
  bMx : Bool
  count : Nat
  aLine : Nat
  bLine : Nat
  cLine : Nat
  dstLine : Nat
  stream : Nat
  indexBase : Nat
  deriving DecidableEq, Repr

def VopWords.ofWords (w0 w1 w2 w3 : Word) : VopWords :=
  let x := w0.toNat
  let y := w1.toNat
  { aFmt := Fmt.ofCode (bits x 59 56), bFmt := Fmt.ofCode (bits x 55 52), cvt := Cvt.ofByte (bits x 51 44),
    aMx := bit x 43, bMx := bit x 42, count := bits x 31 16, aLine := bits y 63 48, bLine := bits y 47 32,
    cLine := bits y 31 16, dstLine := bits y 15 0, stream := bits w2.toNat 63 32, indexBase := w3.toNat }

def VopWords.a (v : VopWords) : Layout := ⟨v.aLine, 0, 1, v.count, v.aFmt, v.aMx⟩
def VopWords.b (v : VopWords) : Layout := ⟨v.bLine, 0, 1, v.count, v.bFmt, v.bMx⟩
def VopWords.c (v : VopWords) : Layout := ⟨v.cLine, 0, 1, v.count, v.bFmt, v.bMx⟩
def VopWords.dst (v : VopWords) : Layout := ⟨v.dstLine, 0, 1, v.count, v.cvt.fmt, v.cvt.mx⟩

/-- The four Riffle bits of a result element under RS (R56, Table 5-3). -/
def VopWords.rif (v : VopWords) (seed e : Nat) : Nat := riffleBits seed v.stream ((v.indexBase + e) % 2 ^ 64) 2

/-- The load conversion of R59: a scaled operand is loaded into FP32 under the instruction's CVT_CTRL (DEDUCED, log 6);
every other load is exact. -/
def loadScaled (cvt : Cvt) (mx : Bool) (r : Nat) (v : Val) : Val × Flags :=
  if mx then
    let e := toFloat fp32 cvt.mode cvt.sat false r v
    (decodeFloat fp32 e.1, e.2)
  else (v, {})

/-- One operand of a VOP as loaded, with the flags of the load. Where R59 scales a load under RS, the load of element e takes the item of
result element e, for A, B and C alike; the manual names no item for a load (DESIGN CHOICE, log 126). -/
def VopWords.load (v : VopWords) (l : Layout) (seed : Nat) (sram : Mem) : List (Val × Flags) :=
  (l.readRow sram 0).mapIdx fun e x => loadScaled v.cvt l.mx (v.rif seed e) x

/-- Whether the candidate b outranks a in the MAXI order of R83, or in the MINI order. -/
def outranks (mini : Bool) (a b : Val) : Bool :=
  if a.isNan then false
  else if b.isNan then true
  else if a.isZero && b.isZero then
    if mini then !a.isNeg && b.isNeg else a.isNeg && !b.isNeg
  else b.cmp a = (if mini then .lt else .gt)

/-- The exact operations of Table 12-23 with one result and the invalid flag. -/
inductive Vop
  | add | sub | mul | fma | max | min | cvt | div | sqrt | exp | log
  deriving DecidableEq, Repr

def Vop.usesB : Vop → Bool
  | .cvt | .sqrt | .exp | .log => false
  | _ => true
def Vop.usesC : Vop → Bool
  | .fma => true
  | _ => false

/-- The exact result of Table 12-23. -/
def Vop.apply (op : Vop) (a b c : Val) : Val × Bool :=
  match op with
  | .add => let r := a.add b; (r, nvOf [a, b] r)
  | .sub => let r := a.sub b; (r, nvOf [a, b] r)
  | .mul => let r := a.mul b; (r, nvOf [a, b] r)
  | .fma => let p := a.mul b; let r := p.add c; (r, nvOf [a, b] p || nvOf [p, c] r)
  | .max => (if outranks false a b then b else a, a.isSnan || b.isSnan)
  | .min => (if outranks true a b then b else a, a.isSnan || b.isSnan)
  | .cvt => (a, a.isSnan)
  | .div => let r := a.div b; (r, nvOf [a, b] r)
  | .sqrt => let r := a.sqrt; (r, nvOf [a] r)
  | .exp => let r := a.exp; (r, nvOf [a] r)
  | .log => let r := a.ln; (r, nvOf [a] r)

/-- A VOP but CADD: loads, exact results, one rounding into DST_FMT (R357). -/
def vopRun (op : Vop) (w0 w1 w2 w3 : Word) (seed : Nat) (sram : Mem) : VectorOut :=
  let v := VopWords.ofWords w0 w1 w2 w3
  let as := v.load v.a seed sram
  let bs := if op.usesB then v.load v.b seed sram else []
  let cs := if op.usesC then v.load v.c seed sram else []
  let rs := as.mapIdx fun e a =>
    op.apply a.1 ((bs.getD e (.zero, {})).1) ((cs.getD e (.zero, {})).1)
  let row := convertRow v.cvt (v.rif seed) (rs.map (·.1))
  let loadFlags : Flags := (as ++ bs ++ cs).foldl (fun (g : Flags) x => g.or x.2) {}
  { writes := v.dst.rowWrites 0 row.1 row.2.1
    flags := (loadFlags.or row.2.2).or { nv := rs.any (·.2) } }

/-- VOP CADD: pairs combined by R89. -/
def caddRun (w0 w1 w2 w3 : Word) (sram : Mem) : VectorOut :=
  let v := VopWords.ofWords w0 w1 w2 w3
  let rs := ((readPairs sram (v.aLine * 64) v.count).zip (readPairs sram (v.bLine * 64) v.count)).map
    fun p => chainCombine p.1 p.2
  { writes := [(v.dstLine * 64, pairBytes (rs.map (·.1)))]
    flags := rs.foldl (fun g r => g.or r.2) {} }

/-! ### VRAND -/

/-- VRAND words (Tables 5-4 to 5-6). -/
structure VrandWords where
  cvt : Cvt
  dstLine : Nat
  count : Nat
  stream : Nat
  indexBase : Nat
  param : Nat
  deriving DecidableEq, Repr

def VrandWords.ofWords (w0 w1 w2 w3 : Word) : VrandWords :=
  let x := w0.toNat
  { cvt := Cvt.ofByte (bits x 59 52), dstLine := bits x 47 32, count := bits x 31 16,
    stream := bits w1.toNat 63 32, indexBase := w2.toNat, param := w3.toNat }

def VrandWords.dst (v : VrandWords) : Layout := ⟨v.dstLine, 0, 1, v.count, v.cvt.fmt, v.cvt.mx⟩

/-- The items of the instruction at a width of 2^lb bits (R117, Table 5-3). -/
def VrandWords.items (v : VrandWords) (seed lb : Nat) : List Nat :=
  (List.range v.count).map fun e => riffleBits seed v.stream ((v.indexBase + e) % 2 ^ 64) lb

/-- Native results converted into DST_FMT (R123). -/
def VrandWords.store (v : VrandWords) (xs : List Val) : VectorOut :=
  let row := convertRow v.cvt (fun _ => 0) xs
  { writes := v.dst.rowWrites 0 row.1 row.2.1, flags := row.2.2 }

/-- RAW: items of width PARAM, packed (Table 5-7). -/
def rawRun (w0 w1 w2 w3 : Word) (seed : Nat) : VectorOut :=
  let v := VrandWords.ofWords w0 w1 w2 w3
  let b := bits v.param 6 0
  let lb := (lbOf b).getD 0
  { writes := [(v.dstLine * 64, leBytes ((v.count * b + 7) / 8) (packNat b (v.items seed lb)))] }

/-- A distribution of width 2^lb whose native result is a function of the item (Table 5-7). -/
def distRun (lb : Nat) (f : Nat → Nat → Val) (w0 w1 w2 w3 : Word) (seed : Nat) : VectorOut :=
  let v := VrandWords.ofWords w0 w1 w2 w3
  v.store ((v.items seed lb).map (f v.param))

def unif01Of (_ t : Nat) : Val := .fin false (t >>> 8) (-24)
def unifOpenOf (_ t : Nat) : Val := .fin false (2 * (t >>> 9) + 1) (-24)
def unif64Of (_ t : Nat) : Val := .fin false (t >>> 11) (-53)
def uintBelowOf (n t : Nat) : Val := Val.ofInt ((t * n) >>> 32 : Nat)
def normalOf (_ t : Nat) : Val := riffleNormal t 0
def truncNormalOf (limit t : Nat) : Val := riffleNormal t limit
def exponentialOf (_ t : Nat) : Val := expDraw t
def gumbelOf (_ t : Nat) : Val := gumbel32 t

/-- BERNOULLI: 1 when t < T; into SPIN1 the bit goes directly (Table 5-7). -/
def bernoulliRun (w0 w1 w2 w3 : Word) (seed : Nat) : VectorOut :=
  let v := VrandWords.ofWords w0 w1 w2 w3
  let xs := (v.items seed 4).map fun t => if t < v.param then 1 else 0
  if v.cvt.fmt = .spin1 then { writes := v.dst.rowWrites 0 xs [] }
  else v.store (xs.map fun x => Val.ofInt (x : Nat))

end Sys2Proof.Machine
end

