-- ==== Sys2Proof/Machine/FerryOps.lean ====
section
/-! DEFINITION. Ferry descriptors: fields, addresses, the check at dispatch, the movement of element runs, progress records, digests,
faults (R243-R251, R273, R274, R301). -/

namespace Sys2Proof.Machine

/-! ## Descriptors -/

/-- A descriptor (Tables 9-5 to 9-8). -/
structure Desc where
  op : Nat
  src : Nat
  dst : Nat
  srcFmt : Fmt
  cvt : Cvt
  sched : Bool
  fence : Bool
  progLine : Nat
  srcAddr : Nat
  dstAddr : Nat
  n0 : Nat
  n1 : Nat
  n2 : Nat
  srcStride1 : Int
  srcStride2 : Int
  dstStride1 : Int
  dstStride2 : Int
  stream : Nat
  fillValue : Nat
  indexBase : Nat
  deriving DecidableEq, Repr

def Desc.ofWords (ws : List Word) : Desc :=
  let w := fun i => (ws.getD i 0).toNat
  { op := bits (w 0) 63 60, src := bits (w 0) 59 58, dst := bits (w 0) 57 56, srcFmt := Fmt.ofCode (bits (w 0) 55 52),
    cvt := Cvt.ofByte (bits (w 0) 51 44), sched := bit (w 0) 43, fence := bit (w 0) 42, progLine := bits (w 0) 31 16,
    srcAddr := w 1, dstAddr := w 2, n0 := bits (w 3) 63 32, n1 := bits (w 3) 31 16, n2 := bits (w 3) 15 0,
    srcStride1 := toSigned 32 (bits (w 4) 63 32), srcStride2 := toSigned 32 (bits (w 4) 31 0),
    dstStride1 := toSigned 32 (bits (w 5) 63 32), dstStride2 := toSigned 32 (bits (w 5) 31 0),
    stream := bits (w 6) 63 32, fillValue := bits (w 6) 31 0, indexBase := w 7 }

def Slot.desc (sl : Slot) : Desc := Desc.ofWords sl.words

def Desc.fill (d : Desc) : Bool := decide (d.op = 1)
def Desc.dstFmt (d : Desc) : Fmt := d.cvt.fmt
def Desc.total (d : Desc) : Nat := d.n0 * d.n1 * d.n2
/-- Bytes of a packed run on either side (R41, R42). -/
def Desc.srcRow (d : Desc) : Nat := rowBytes d.srcFmt d.n0
def Desc.dstRow (d : Desc) : Nat := rowBytes d.dstFmt d.n0

/-- Byte address at which an address word starts in its space (Table 9-9); a PORT message starts at byte 0. -/
def spaceBase (space addr : Nat) : Nat :=
  if space = 1 then addr % 2 ^ 43 else if space = 3 then 0 else addr % 2 ^ 16 * 64

/-- First source byte of a run (R245); the runs of a message follow one another (log 47). -/
def Desc.srcRun (d : Desc) (r : Nat) : Int :=
  if d.src = 3 then (r * d.srcRow : Nat)
  else (spaceBase d.src d.srcAddr : Nat) + (r / d.n1 : Nat) * d.srcStride2 + (r % d.n1 : Nat) * d.srcStride1

/-- First destination byte of a run (R245). -/
def Desc.dstRun (d : Desc) (r : Nat) : Int :=
  if d.dst = 3 then (r * d.dstRow : Nat)
  else (spaceBase d.dst d.dstAddr : Nat) + (r / d.n1 : Nat) * d.dstStride2 + (r % d.n1 : Nat) * d.dstStride1

/-- Bytes of the message a descriptor sends or receives. -/
def Desc.sendBytes (d : Desc) : Nat := d.n1 * d.n2 * d.dstRow
def Desc.recvBytes (d : Desc) : Nat := d.n1 * d.n2 * d.srcRow

/-- PORT address fields (Table 11-6). -/
def portMcast (a : Nat) : Bool := bit a 63
def portPeer (a : Nat) : Nat := bits a 47 32
def portChannel (a : Nat) : Nat := bits a 31 24

/-! ## The check at dispatch (R244, R301) -/

/-- Every run of a side lies in the tile SRAM allocation; the extreme runs decide. -/
def runsFit (base : Int) (s1 s2 : Int) (n1 n2 len : Nat) : Bool :=
  [(0, 0), (n1 - 1, 0), (0, n2 - 1), (n1 - 1, n2 - 1)].all fun q =>
    let a := base + (q.1 : Nat) * s1 + (q.2 : Nat) * s2
    decide (0 ≤ a) && decide (a + (len : Nat) ≤ (0xFC00 * 64 : Nat))

/-- The address word of one side is well formed in its space. -/
def sideOk (space addr : Nat) (s1 s2 : Int) (n1 n2 len bytes : Nat) (send : Bool) (inPart : Nat → Bool) : Bool :=
  match space with
  | 0 => decide (addr < 2 ^ 16) && runsFit (spaceBase 0 addr : Nat) s1 s2 n1 n2 len
  | 1 => decide (addr < 2 ^ 43)
  | 2 => decide (addr / 2 ^ 48 = 0) && decide (addr / 2 ^ 16 % 2 ^ 16 = 0) && inPart (bits addr 47 32) &&
      runsFit (spaceBase 2 addr : Nat) s1 s2 n1 n2 len
  | _ => decide (bits addr 62 48 = 0) && decide (bits addr 23 0 = 0) && (send || !(portMcast addr)) &&
      (!(portMcast addr) || decide (portPeer addr < 256)) && decide (1 ≤ bytes ∧ bytes ≤ 16777216)

/-- The descriptor is accepted (R244, R301). -/
def Desc.ok (d : Desc) (ws : List Word) (inPart : Nat → Bool) : Bool :=
  let w0 := (ws.getD 0 0).toNat
  decide (d.op ≤ 1) && decide (bits w0 41 32 = 0) && decide (bits w0 15 0 = 0) && !d.cvt.mx && decide (bits w0 47 46 ≠ 3) &&
    decide (0 < d.n0 ∧ 0 < d.n1 ∧ 0 < d.n2) &&
    (if d.fill then !([Fmt.fp64, .fp32c].contains d.srcFmt) && decide (d.fillValue < 2 ^ d.srcFmt.width)
     else decide (d.fillValue = 0) && sideOk d.src d.srcAddr d.srcStride1 d.srcStride2 d.n1 d.n2 d.srcRow d.recvBytes false inPart) &&
    sideOk d.dst d.dstAddr d.dstStride1 d.dstStride2 d.n1 d.n2 d.dstRow d.sendBytes true inPart && decide (d.progLine < 0xFC00)

/-! ## Element runs -/

/-- Splices a bit field into bytes: bits below `lo` and at or above `hi` are kept. -/
def spliceBits (old : List Byte) (lo hi v : Nat) : List Byte :=
  let n := leNat old
  leBytes old.length (n % 2 ^ lo + v % 2 ^ (hi - lo) * 2 ^ lo + (n >>> hi) <<< hi)

/-- The bits of one source element, read through a byte reader. -/
def Desc.sourceBits (d : Desc) (get : Nat → Nat → List Byte) (r e0 : Nat) : Nat :=
  let w := d.srcFmt.width
  let lo := e0 * w / 8
  let n := (e0 * w + w - 1) / 8 - lo + 1
  (leNat (get ((d.srcRun r).toNat + lo) n) >>> (e0 * w % 8)) % 2 ^ w

/-- The element's own value, as R45 takes it with scale 127: an INT8 element stands for the integer times 2^-6 (R244). -/
def ownValue (f : Fmt) (x : Nat) : Val := if f = .int8 then decodeScaled f 127 x else decodeElem f x

/-- Destination bits of the element at a position, with the flags of its conversion (R244, R246). -/
def Desc.element (d : Desc) (seed : Nat) (get : Nat → Nat → List Byte) (e : Nat) : Nat × Flags :=
  let item := if d.cvt.mode = .rs then riffleBits seed d.stream ((d.indexBase + e) % 2 ^ 64) 2 else 0
  if d.fill then convert d.cvt item (ownValue d.srcFmt d.fillValue)
  else
    let x := d.sourceBits get (e / d.n0) (e % d.n0)
    if d.srcFmt = d.dstFmt then (x, {}) else convert d.cvt item (ownValue d.srcFmt x)

/-- The positions from a up to b of one run written: destination address, bytes and flags (R42, R244, R247). -/
def Desc.moveRun (d : Desc) (seed : Nat) (get old : Nat → Nat → List Byte) (a b : Nat) : (Nat × List Byte) × Flags :=
  let w := d.dstFmt.width
  let i0 := a % d.n0
  let i1 := i0 + (b - a)
  let es := (List.range (b - a)).map fun k => d.element seed get (a + k)
  let first := i0 * w
  let last := if i1 = d.n0 then d.dstRow * 8 else i1 * w
  let byte0 := first / 8
  let at_ := (d.dstRun (a / d.n0)).toNat + byte0
  let n := (last + 7) / 8 - byte0
  ((at_, spliceBits (old at_ n) (first - 8 * byte0) (last - 8 * byte0) (packNat w (es.map (·.1)))),
    es.foldl (fun (g : Flags) e => g.or e.2) {})

/-- Positions of a run whose last byte lies before a byte offset of the run: how many there are (R250). -/
def wholeBefore (w off : Nat) : Nat := 8 * off / w

/-- First position of a run whose first byte lies at or beyond a byte offset of the run. -/
def firstBeyond (w off : Nat) : Nat := (8 * off + w - 1) / w

/-- Positions that one HBM request serves from position a on: those of the same run, in the same 256-byte block on every side
that is HBM (R247). An element that straddles two blocks goes with the later one, by itself: a fault on its second page leaves the elements before it
done (R250). -/
def Desc.chunkEnd (d : Desc) (a : Nat) : Nat :=
  let r := a / d.n0
  let i0 := a % d.n0
  let lim := fun (space : Nat) (run : Int) (w : Nat) =>
    if space = 1 then
      let base := run.toNat
      wholeBefore w (((base + i0 * w / 8) / 256 + 1) * 256 - base)
    else d.n0
  let src := if d.fill then d.n0 else lim d.src (d.srcRun r) d.srcFmt.width
  let n := min d.n0 (min src (lim d.dst (d.dstRun r) d.dstFmt.width))
  r * d.n0 + max (i0 + 1) n

/-- Byte span of positions a to b of one run on one side: address and length. -/
def spanOf (run : Int) (w n0 row a b : Nat) : Int × Nat :=
  let i0 := a % n0
  let i1 := i0 + (b - a)
  let lo := i0 * w / 8
  (run + (lo : Nat), (if i1 = n0 then row else (i1 * w + 7) / 8) - lo)

def Desc.srcSpan (d : Desc) (a b : Nat) : Int × Nat := spanOf (d.srcRun (a / d.n0)) d.srcFmt.width d.n0 d.srcRow a b
def Desc.dstSpan (d : Desc) (a b : Nat) : Int × Nat := spanOf (d.dstRun (a / d.n0)) d.dstFmt.width d.n0 d.dstRow a b

/-- Virtual pages of a span. -/
def spanPages (x : Int × Nat) : List Nat :=
  if x.2 = 0 then [] else (List.range ((x.1.toNat + x.2 - 1) / 2 ^ 21 - x.1.toNat / 2 ^ 21 + 1)).map fun k => x.1.toNat / 2 ^ 21 + k

/-! ## Reading and writing the spaces -/

/-- Bytes of one side of a descriptor (Table 9-9). -/
def State.spaceRead (s : State) (p t : Nat) (sl : Slot) (space addr at_ n : Nat) : List Byte :=
  match space with
  | 0 => (s.tile t).sram.read at_ n
  | 1 =>
    match s.part p with
    | some x => s.readVa x at_ n
    | none => List.replicate n 0
  | 2 => (s.tile (bits addr 47 32)).sram.read at_ n
  | _ => fitBytes n ((sl.msg.drop at_).take n)

/-- Bytes written on the destination side. -/
def State.spaceWrite (s : State) (p t : Nat) (space addr : Nat) (w : Nat × List Byte) : State :=
  match space with
  | 0 => s.updTile t fun x => { x with sram := x.sram.write w.1 w.2 }
  | 1 =>
    match s.part p with
    | some x =>
      let s := s.writeVa x w.1 w.2
      let whole := fun (a : Nat) => (List.range (w.2.length / 256 + 1)).any fun k =>
        match x.hpa (w.1 / 256 * 256 + 256 * k) with
        | some h => decide (h / 256 = a ∧ w.1 ≤ (w.1 / 256 + k) * 256 ∧ (w.1 / 256 + k) * 256 + 256 ≤ w.1 + w.2.length)
        | none => false
      { s with hbm := { s.hbm with poisoned := s.hbm.poisoned.filter fun a => !(whole a) } }
    | none => s
  | 2 => s.updTile (bits addr 47 32) fun x => { x with sram := x.sram.write w.1 w.2 }
  | _ => s

/-! ## Progress records -/

/-- The record of Table 9-10. -/
def Slot.record (sl : Slot) (n : Nat) : List Byte :=
  leBytes 8 sl.done ++ leBytes 1 sl.phase.code ++ leBytes 1 sl.faultCode ++ leBytes 1 n ++ [0] ++ leBytes 4 sl.seq.toNat ++
    leBytes 8 sl.faultVa ++ List.replicate 40 0

def TileState.slot (x : TileState) (n : Nat) : Slot := x.ferry.slots.getD n {}

/-- A slot replaced, its record written when asked. -/
def TileState.setSlot (x : TileState) (n : Nat) (sl : Slot) (rec_ : Bool) : TileState :=
  { x with ferry := { x.ferry with slots := x.ferry.slots.set n sl },
           sram := if rec_ then x.sram.write (sl.desc.progLine * 64) (sl.record n) else x.sram }

def State.setSlot (s : State) (t n : Nat) (sl : Slot) (rec_ : Bool) : State := s.updTile t fun x => x.setSlot n sl rec_

/-! ## Digests (R273, R274) -/

/-- A destination block: its number, the last position that writes it, and the byte spans written. -/
structure DstBlock where
  block : Nat
  last : Nat
  spans : List (Nat × Nat)
  deriving DecidableEq, Repr

/-- Adds one block of a run to the blocks in the order of their first reach. -/
def joinBlock (b : DstBlock) : List DstBlock → List DstBlock
  | [] => [b]
  | c :: t => if c.block = b.block then { c with last := max c.last b.last, spans := c.spans ++ b.spans } :: t else c :: joinBlock b t

/-- Blocks of one run. -/
def Desc.runBlocks (d : Desc) (r : Nat) : List DstBlock :=
  let a := (d.dstRun r).toNat
  let len := d.dstRow
  (List.range ((a + len - 1) / 256 - a / 256 + 1)).map fun i =>
    let k := a / 256 + i
    let stop := min len ((k + 1) * 256 - a)
    let start := max a (k * 256)
    { block := k, last := r * d.n0 + min (d.n0 - 1) (firstBeyond d.dstFmt.width stop - 1), spans := [(start, a + stop - start)] }

/-- The distinct destination blocks in the order in which ascending positions first reach them (Table 10-5). -/
def Desc.dstBlocks (d : Desc) : List DstBlock :=
  ((List.range (d.n1 * d.n2)).flatMap d.runBlocks).foldl (fun bs b => joinBlock b bs) []

/-- Contributions of the blocks whose last element lies from a up to b. -/
def State.ferrySum (s : State) (p t : Nat) (sl : Slot) (a b : Nat) : Word :=
  let d := sl.desc
  d.dstBlocks.zipIdx.foldl (fun n q =>
    if a ≤ q.1.last ∧ q.1.last < b then
      let m := Mem.writeAll [] (q.1.spans.map fun sp => (sp.1, s.spaceRead p t sl d.dst d.dstAddr sp.1 sp.2))
      n + contribution unitFerry t sl.iseq.toNat q.2 (m.read (256 * q.1.block) 256)
    else n) 0

/-! ## Progress -/

/-- Bytes that the positions from a up to b write in an address range. -/
def Desc.bytesIn (d : Desc) (lo hi a b : Nat) : Nat :=
  ((List.range (d.n1 * d.n2)).map fun r =>
    let a' := max a (r * d.n0)
    let b' := min b ((r + 1) * d.n0)
    if a' < b' then
      let sp := d.dstSpan a' b'
      min hi (sp.1.toNat + sp.2) - max lo sp.1.toNat
    else 0).sum

/-- The sequencer takes every whole record that stands in its ring, which frees the place (R144). -/
def SeqState.ringTake (c : SeqCopy) (m : Mem) (q : SeqState) : SeqState :=
  let n := (q.ringWr - q.ringRd) / 96
  { q with ringRd := q.ringRd + 96 * n, got := q.got ++ (List.range n).map fun i => c.ringRecord m (q.ringRd + 96 * i) }

/-- A streamed run counts what the progress records of the tile's own ferry show as written to its ring, and takes the records (R144;
DESIGN CHOICE, log 131). -/
def TileState.ringPull (x : TileState) : TileState :=
  match x.seq.copy with
  | some c =>
    if c.ctl.streamed && decide (x.seq.phase = .check ∨ x.seq.phase = .prime ∨ x.seq.phase = .run ∨ x.seq.phase = .energy) then
      let lo := c.ctl.graphLine * 64
      let n := (x.ferry.slots.map fun e => if e.2.desc.dst = 0 then e.2.desc.bytesIn lo (lo + c.ctl.ringLines * 64) e.2.fed e.2.done else 0).sum
      { x with ferry := { x.ferry with slots := x.ferry.slots.mapVals fun sl => { sl with fed := sl.done } },
               seq := SeqState.ringTake c x.sram { x.seq with ringWr := x.seq.ringWr + n } }
    else x
  | none => x

/-- A WAIT_FERRY whose slot has come far enough is complete, and its entry joins the instruction ring (R276, R356). -/
def State.waitCheck (s : State) (p t : Nat) : State :=
  let x := s.tile t
  match x.waitFerry with
  | none => s
  | some w =>
    if (x.slot w.1).phase = .idle ∨ (x.slot w.1).phase = .done ∨ w.2 ≤ (x.slot w.1).done then
      (s.updTile t fun y => { y with waitFerry := none }).completed p t x.waitIseq.toNat unitNone 0
    else s

/-- ELEM_DONE moves to b: digest, record at each multiple of 4,096 and at DONE (R249, R274). -/
def State.ferryProgress (s : State) (p t n b : Nat) : State :=
  let sl := (s.tile t).slot n
  let d := sl.desc
  let sum := if 1 ≤ s.traceLevel p then s.ferrySum p t sl sl.done b else 0
  let done := decide (b = d.total)
  let wait := done && d.fence && decide (d.dst ≠ 0) && decide (d.dst ≠ 3)
  let sl' : Slot := { sl with done := b, sum := sl.sum + sum, fenced := wait,
                              phase := if done && !wait then .done else sl.phase }
  let s := s.updTile t fun x => { x with acc := x.acc + sum }
  let s := s.setSlot t n sl' (decide (sl.done / 4096 ≠ b / 4096) || (done && !wait))
  ((if done && !wait && decide (1 ≤ s.traceLevel p) then
      s.updTile t fun x => x.instrEntry (s.meridian p) sl.iseq.toNat unitFerry sl'.sum
    else s).waitCheck p t).updTile t TileState.ringPull

/-- The ACK of the last write has arrived: a fenced descriptor is DONE (R203, Table 9-11). -/
def State.ferryAcked (s : State) (p t n : Nat) : State :=
  let sl := (s.tile t).slot n
  if sl.fenced then
    let s := s.setSlot t n { sl with fenced := false, phase := .done } true
    (if 1 ≤ s.traceLevel p then s.updTile t fun x => x.instrEntry (s.meridian p) sl.iseq.toNat unitFerry sl.sum else s).waitCheck p t
  else s

/-- A conversion under RS waits while the tile delivers no Riffle words (R130). -/
def TileState.ferryStalls (x : TileState) (d : Desc) : Bool := x.riffleStop && decide (d.cvt.mode = .rs)

/-- Elements from a up to b, of one run, are moved, flags set and Riffle words used (R54, R126, R246). -/
def State.ferryMove (s : State) (p t n a b : Nat) : State :=
  let x := s.tile t
  let sl := x.slot n
  let d := sl.desc
  let r := d.moveRun x.seed (s.spaceRead p t sl d.src d.srcAddr) (s.spaceRead p t sl d.dst d.dstAddr) a b
  (s.spaceWrite p t d.dst d.dstAddr r.1).updTile t fun x =>
    (if d.cvt.mode = .rs then x.useItems d.stream (d.indexBase + a) 2 (b - a) else x).flag r.2

/-- Every run moved: neither side is HBM. -/
def State.ferryAll (s : State) (p t n : Nat) : State :=
  let d := ((s.tile t).slot n).desc
  let s := (List.range (d.n1 * d.n2)).foldl (fun s r => s.ferryMove p t n (r * d.n0) ((r + 1) * d.n0)) s
  s.ferryProgress p t n d.total

/-- JOB_DONE status of a final fault (R242). -/
def faultStatus (code : Nat) : Status :=
  if code = 5 ∨ code = 6 then .dataLoss else if code = 7 then .limit else .refused

/-- A final fault: the record, detector 0x0601, and the job ends (R242, R250). -/
def State.ferryFault (s : State) (p t n code va : Nat) (st : Status) : State :=
  let sl := (s.tile t).slot n
  let s := s.setSlot t n { sl with phase := .failed, faultCode := code, faultVa := va, locked := false } true
  (s.raise { det := 0x0601, loc := { s.locOf t with unit := n }, part := p }).endJob p st

/-- The message that a SEND descriptor forms from its source: every run packed, the runs following one another (R301). -/
def State.sendMessage (s : State) (p t n : Nat) : List Byte × Flags :=
  let x := s.tile t
  let sl := x.slot n
  let d := sl.desc
  (List.range (d.n1 * d.n2)).foldl (fun (acc : List Byte × Flags) r =>
    let q := d.moveRun x.seed (s.spaceRead p t sl d.src d.srcAddr) (fun _ k => List.replicate k 0) (r * d.n0) ((r + 1) * d.n0)
    (acc.1 ++ q.1.2, acc.2.or q.2)) ([], {})

end Sys2Proof.Machine
end

