-- ==== Sys2Proof/Machine/Codec.lean ====
section
/-! DEFINITION. The per-tile section of a BOUND context image (R86, R128, R168, R191, R252, R255): a tile's state as a list of
numbers, and numbers as bytes. The manual names what the section holds and leaves its layout open (log 44). -/

namespace Sys2Proof.Machine

/-! ## Numbers as bytes -/

/-- A number: how many bytes, then the bytes. -/
def numBytes (n : Nat) : List Byte :=
  let k := if n = 0 then 0 else n.log2 / 8 + 1
  BitVec.ofNat 8 k :: leBytes k n

def natsBytes (ns : List Nat) : List Byte := ns.flatMap numBytes

/-- The numbers that bytes spell, reading at most n of them. -/
def bytesNats : Nat → List Byte → List Nat
  | 0, _ => []
  | _, [] => []
  | n + 1, k :: bs => leNat (bs.take k.toNat) :: bytesNats n (bs.drop k.toNat)

/-! ## Writing -/

def encList {α : Type} (f : α → List Nat) (xs : List α) : List Nat := xs.length :: xs.flatMap f
def encNats (xs : List Nat) : List Nat := encList (fun x => [x]) xs
def encMem (m : Mem) : List Nat := encList (fun (c : Host.Cell) => [c.1, c.2.toNat]) m
def encPairs (ps : List Pair) : List Nat :=
  if ps = List.replicate 4096 Pair.zero then [0] else encList (fun (p : Pair) => [p.toNat]) ps
def encTwo (xs : List (Nat × Nat)) : List Nat := encList (fun x => [x.1, x.2]) xs
def encBool (b : Bool) : Nat := if b then 1 else 0
def encWords (ws : List Word) : List Nat := encNats (ws.map BitVec.toNat)

def FerryPhase.ofCode : Nat → FerryPhase
  | 1 => .run | 2 => .done | 3 => .faultWait | 4 => .failed | 5 => .preempted | _ => .idle

def SeqPhase.code : SeqPhase → Nat
  | .idle => 0 | .check => 1 | .prime => 2 | .run => 3 | .energy => 4 | .halt => 5 | .fault => 6
def SeqPhase.ofCode : Nat → SeqPhase
  | 1 => .check | 2 => .prime | 3 => .run | 4 => .energy | 5 => .halt | 6 => .fault | _ => .idle

/-- Array state after the last retired ticket (R86). -/
def ArrayState.enc (a : ArrayState) : List Nat :=
  [a.termCnt, a.segCnt, encBool a.accLong, a.ctrl.toNat, a.ticket.toNat, encBool a.slotEmpty, encBool a.stopped, encBool a.unbounded,
    encBool a.tooLong, encBool a.slotOpen] ++
    encList (fun e => e.1 :: encNats (e.2.map BitVec.toNat)) a.slotSeen ++ encPairs a.pairs

/-- A chain instruction that was withdrawn (R109): its words and the place it was dispatched at. -/
def ChainEntry.enc (e : ChainEntry) : List Nat := [e.w0.toNat, e.w1.toNat, e.w2.toNat, e.step, e.iseq.toNat, e.pos, encBool e.energy]

/-- Sequencer state (R168). -/
def SeqState.enc (q : SeqState) : List Nat :=
  encWords q.words ++ [encBool q.copy.isSome, q.ctrlLine, q.phase.code, q.iseq.toNat, q.sweep, q.sweepsDone, q.entry, q.rep, q.colour,
    q.step, encBool q.waitEnd, q.rotDigest.toNat, q.traceWr, q.traceRd, encBool q.traceWait, q.conflict.toNat, encBool q.errFlag,
    (match q.gate with
     | none => 0
     | some b => 1 + encBool b)] ++ encNats q.ends0 ++ encNats q.ends1 ++ encTwo q.stage0 ++ encTwo q.stage1 ++ encNats q.flips ++ encNats q.cflips ++
    encNats q.changed ++ encMem q.before ++ [q.ringWr, q.ringRd, (match q.due with
     | none => 0
     | some c => 1 + c), encBool q.again] ++ encList (fun b => encNats (b.map BitVec.toNat)) q.got

/-- A descriptor slot with its progress (R253, R274). -/
def Slot.enc (sl : Slot) : List Nat :=
  encWords sl.words ++ [sl.phase.code, sl.done, sl.faultCode, sl.faultVa, sl.seq.toNat, sl.iseq.toNat, encBool sl.fenced,
    encBool sl.portDone, encBool sl.portSent, sl.sum.toNat, sl.fetched, sl.fed] ++ encNats (sl.msg.map BitVec.toNat)

/-- Barrier state; the tiles it names stand by their index in the partition. -/
def BarState.enc (b : BarState) (ix : Nat → Nat) : List Nat :=
  let opt := fun (o : Option Bool) => match o with
    | none => 0
    | some false => 1
    | some true => 2
  [opt b.issued, encBool b.sent, opt b.release, b.iseq.toNat] ++
    encList (fun (h : Nat × Bool × Bool) => [ix h.1, encBool h.2.1, encBool h.2.2]) b.held

/-- The section of one tile. -/
def TileState.enc (x : TileState) (ix : Nat → Nat) : List Nat :=
  encMem x.sram ++ [x.fp.toNat] ++ x.array.enc ++ encWords x.vq ++ [encBool x.drawBusy, x.drawRows.toNat, x.drawIseq.toNat] ++
    encList (fun (e : Nat × List Byte) => e.1 :: encNats (e.2.map BitVec.toNat)) x.drawWrites ++ encList ChainEntry.enc x.withdrawn ++ x.seq.enc ++
    encList (fun (e : Nat × Slot) => e.1 :: e.2.enc) x.ferry.slots ++ [x.ferry.descSeq.toNat] ++ x.bar.enc ix ++
    [x.pos, encBool x.ended, encBool x.halted] ++ encTwo x.loops ++
    (match x.waitFerry with
     | none => [0]
     | some w => [1, w.1, w.2, x.waitIseq.toNat]) ++ [x.iseq.toNat, x.acc.toNat, x.eyepiece.toNat]

/-! ## Reading -/

/-- A reader of numbers. -/
abbrev Dec (α : Type) := StateT (List Nat) Option α

def decNat : Dec Nat := fun ns =>
  match ns with
  | [] => none
  | n :: t => some (n, t)

def decBool : Dec Bool := do
  let n ← decNat
  pure (decide (n = 1))

def decBv (w : Nat) : Dec (BitVec w) := do
  let n ← decNat
  pure (BitVec.ofNat w n)

def decMany {α : Type} (d : Dec α) : Nat → Dec (List α)
  | 0 => pure []
  | n + 1 => do
    let x ← d
    let t ← decMany d n
    pure (x :: t)

def decList {α : Type} (d : Dec α) : Dec (List α) := do
  let n ← decNat
  decMany d n

def decTwo : Dec (List (Nat × Nat)) := decList do
  let a ← decNat
  let b ← decNat
  pure (a, b)

/-- A memory, brought into canonical form whatever order the numbers name its bytes in. -/
def decMem : Dec Mem := do
  let cs ← decTwo
  pure (cs.foldl (fun (m : Mem) c => m.write c.1 [BitVec.ofNat 8 c.2]) [])

def decWords : Dec (List Word) := decList (decBv 64)

/-- 4,096 pairs. -/
def decPairs : Dec (List Pair) := do
  let n ← decNat
  if n = 0 then pure (List.replicate 4096 Pair.zero)
  else do
    let ps ← decMany decNat n
    if n = 4096 then pure (ps.map Pair.ofNat) else fun _ => none

def ArrayState.dec : Dec ArrayState := do
  let termCnt ← decNat
  let segCnt ← decNat
  let accLong ← decBool
  let ctrl ← decBv 32
  let ticket ← decBv 16
  let slotEmpty ← decBool
  let stopped ← decBool
  let unbounded ← decBool
  let tooLong ← decBool
  let slotOpen ← decBool
  let slotSeen ← decList (do
    let k ← decNat
    let bs ← decList decNat
    pure (k, bs.map (BitVec.ofNat 8)))
  let pairs ← decPairs
  pure { pairs := pairs, termCnt := termCnt, segCnt := segCnt, accLong := accLong, ctrl := ctrl, ticket := ticket, slotEmpty := slotEmpty,
         stopped := stopped, unbounded := unbounded, tooLong := tooLong, slotOpen := slotOpen, slotSeen := slotSeen }

def ChainEntry.dec : Dec ChainEntry := do
  let w0 ← decBv 64
  let w1 ← decBv 64
  let w2 ← decBv 64
  let step ← decNat
  let iseq ← decBv 32
  let pos ← decNat
  let energy ← decBool
  pure { w0 := w0, w1 := w1, w2 := w2, step := step, iseq := iseq, pos := pos, energy := energy }

/-- Sequencer state; the copies of the directories are read again from tile SRAM, which holds them (R154, R168). -/
def SeqState.dec (sram : Mem) : Dec SeqState := do
  let words ← decWords
  let copied ← decBool
  let ctrlLine ← decNat
  let phase ← decNat
  let iseq ← decBv 32
  let sweep ← decNat
  let sweepsDone ← decNat
  let entry ← decNat
  let rep ← decNat
  let colour ← decNat
  let step ← decNat
  let waitEnd ← decBool
  let rotDigest ← decBv 64
  let traceWr ← decNat
  let traceRd ← decNat
  let traceWait ← decBool
  let conflict ← decBv 64
  let errFlag ← decBool
  let gate ← decNat
  let ends0 ← decList decNat
  let ends1 ← decList decNat
  let stage0 ← decTwo
  let stage1 ← decTwo
  let flips ← decList decNat
  let cflips ← decList decNat
  let changed ← decList decNat
  let before ← decMem
  let ringWr ← decNat
  let ringRd ← decNat
  let due ← decNat
  let again ← decBool
  let got ← decList (decList (decBv 8))
  pure { words := words, copy := if copied then some (SeqCopy.read sram ctrlLine words) else none, ctrlLine := ctrlLine,
         phase := SeqPhase.ofCode phase, iseq := iseq, sweep := sweep, sweepsDone := sweepsDone, entry := entry, rep := rep,
         colour := colour, step := step, ends0 := ends0, ends1 := ends1, stage0 := stage0, stage1 := stage1, waitEnd := waitEnd,
         flips := flips, cflips := cflips, changed := changed, before := before, rotDigest := rotDigest, traceWr := traceWr,
         traceRd := traceRd, traceWait := traceWait, conflict := conflict, errFlag := errFlag, ringWr := ringWr, ringRd := ringRd,
         due := if due = 0 then none else some (due - 1), again := again, got := got, gate := if gate = 0 then none else some (decide (gate = 2)) }

def Slot.dec : Dec Slot := do
  let words ← decWords
  let phase ← decNat
  let done ← decNat
  let faultCode ← decNat
  let faultVa ← decNat
  let seq ← decBv 32
  let iseq ← decBv 32
  let fenced ← decBool
  let portDone ← decBool
  let portSent ← decBool
  let sum ← decBv 64
  let fetched ← decNat
  let fed ← decNat
  let msg ← decList (decBv 8)
  pure { words := words, phase := FerryPhase.ofCode phase, done := done, faultCode := faultCode, faultVa := faultVa, seq := seq,
         iseq := iseq, fenced := fenced, portDone := portDone, portSent := portSent, sum := sum, fetched := fetched, fed := fed, msg := msg }

def BarState.dec (at_ : Nat → Nat) : Dec BarState := do
  let opt := fun (n : Nat) => if n = 1 then some false else if n = 2 then some true else none
  let issued ← decNat
  let sent ← decBool
  let release ← decNat
  let iseq ← decBv 32
  let held ← decList do
    let t ← decNat
    let k ← decBool
    let f ← decBool
    pure (at_ t, k, f)
  pure { issued := opt issued, held := held, sent := sent, release := opt release, iseq := iseq }

/-- A tile from its section, with the seed of the image. -/
def TileState.dec (seed : Nat) (at_ : Nat → Nat) : Dec TileState := do
  let sram ← decMem
  let fp ← decBv 32
  let array ← ArrayState.dec
  let vq ← decWords
  let drawBusy ← decBool
  let drawRows ← decBv 15
  let drawIseq ← decBv 32
  let drawWrites ← decList do
    let a ← decNat
    let bs ← decList decNat
    pure (a, bs.map (BitVec.ofNat 8))
  let withdrawn ← decList ChainEntry.dec
  let q ← SeqState.dec sram
  let slots ← decList do
    let k ← decNat
    let sl ← Slot.dec
    pure (k, sl)
  let descSeq ← decBv 32
  let bar ← BarState.dec at_
  let pos ← decNat
  let ended ← decBool
  let halted ← decBool
  let loops ← decTwo
  let waits ← decNat
  let waitFerry ← if waits = 1 then do
      let a ← decNat
      let b ← decNat
      let i ← decBv 32
      pure (some (a, b), i)
    else pure (none, 0)
  let iseq ← decBv 32
  let acc ← decBv 64
  let eyepiece ← decBv 64
  pure { sram := sram, fp := fp, array := array, vq := vq, seedHi := BitVec.ofNat 64 (seed / 2 ^ 64), seedLo := BitVec.ofNat 64 seed,
         drawBusy := drawBusy, drawRows := drawRows, drawIseq := drawIseq, drawWrites := drawWrites,
         withdrawn := withdrawn, seq := q,
         ferry := { slots := slots.foldl (fun (t : Tab Slot) e => t.set e.1 e.2) [], descSeq := descSeq }, bar := bar, pos := pos,
         loops := loops, ended := ended, halted := halted, waitFerry := waitFerry.1, waitIseq := waitFerry.2, iseq := iseq, acc := acc, eyepiece := eyepiece }

end Sys2Proof.Machine
end

