-- ==== Sys2Proof/Machine/DrawUnit.lean ====
section
/-! DEFINITION. What the draw unit of one tile does for each row (R173-R192). -/

namespace Sys2Proof.Machine

/-- DRAW words (Tables 7-1 to 7-4). -/
structure DrawWords where
  compat : Bool
  phase : Nat
  sFmt : Fmt
  topK : Nat
  nrows : Nat
  srcLine : Nat
  outLine : Nat
  vocabBase : Nat
  segLen : Nat
  invTemp : BitVec 32
  topP : BitVec 32
  stream : Nat
  seqLine : Nat
  rowPitch : Nat
  deriving DecidableEq, Repr

def DrawWords.ofWords (w0 w1 w2 w3 : Word) : DrawWords :=
  let x := w0.toNat
  let y := w1.toNat
  let z := w2.toNat
  let u := w3.toNat
  { compat := decide (bits x 63 62 = 1), phase := bits x 61 60, sFmt := Fmt.ofCode (bits x 59 56), topK := bits x 55 47,
    nrows := bits x 46 32, srcLine := bits x 31 16, outLine := bits x 15 0, vocabBase := bits y 63 32,
    segLen := bits y 31 15, invTemp := BitVec.ofNat 32 (bits z 63 32), topP := BitVec.ofNat 32 (bits z 31 0),
    stream := bits u 63 32, seqLine := bits u 31 16, rowPitch := bits u 15 0 }

/-- A sequence record (Table 7-7). -/
structure SeqRec where
  id : Nat
  pos : Nat
  done : Bool
  full : Bool
  bad : Bool
  stop : Nat
  deriving DecidableEq, Repr

def DrawWords.recAddr (d : DrawWords) (r : Nat) : Nat := d.seqLine * 64 + 16 * r

/-- Sequence record r (R180). -/
def DrawWords.record (d : DrawWords) (m : Mem) (r : Nat) : SeqRec :=
  let a := d.recAddr r
  let f := m.nat (a + 4) 4
  ⟨m.nat a 4, f % 2 ^ 24, bit f 24, bit f 25, decide (f / 2 ^ 26 ≠ 0), m.nat (a + 8) 4⟩

/-- A result record (Table 7-8). -/
structure DrawResult where
  token : Nat
  pos : Nat
  prob : BitVec 32 := 0
  cutN : Nat := 0
  status : Nat
  flags : Nat := 0
  deriving DecidableEq, Repr

def DrawResult.bytes (r : DrawResult) : List Byte :=
  leBytes 4 r.token ++ leBytes 4 r.pos ++ leBytes 4 r.prob.toNat ++ leBytes 2 r.cutN ++
    [BitVec.ofNat 8 r.status, BitVec.ofNat 8 r.flags]

/-- What one row does: memory writes, flags, and the detector it raises (Table 7-12). -/
structure RowOut where
  writes : List (Nat × List Byte) := []
  flags : Flags := {}
  raise : Option Nat := none
  deriving DecidableEq, Repr

/-- Scores of one row (R173, R176). -/
def DrawWords.scores (d : DrawWords) (m : Mem) (r : Nat) : List Val :=
  let packed := lineUp (rowBytes d.sFmt d.segLen) / 64
  let pitch := if d.rowPitch = 0 then packed else d.rowPitch
  (Layout.readRow ⟨d.srcLine + r * pitch, 0, 1, d.segLen, d.sFmt, false⟩ m 0)

/-- End of the bytes that a DRAW reads its scores, lists or entries from (R173). -/
def DrawWords.srcEnd (d : DrawWords) : Nat :=
  let row := (rowBytes d.sFmt d.segLen + 63) / 64
  d.srcLine * 64 +
    (if d.phase = 2 then (if d.compat then d.nrows * 8 else d.nrows * lineUp (8 * max d.topK 1))
     else (d.nrows - 1) * (if d.rowPitch = 0 then row else d.rowPitch) * 64 + rowBytes d.sFmt d.segLen)

/-- End of the bytes that a DRAW writes from OUT_LINE: lists or entries in LOCAL, result records of 16 bytes otherwise (R177, R182). -/
def DrawWords.outEnd (d : DrawWords) : Nat :=
  d.outLine * 64 +
    (if d.phase = 1 then (if d.compat then d.nrows * 8 else d.nrows * lineUp (8 * max d.topK 1)) else d.nrows * 16)

/-- A native LOCAL uses no sequence record (R177, R180). -/
def DrawWords.usesRecords (d : DrawWords) : Bool := d.compat || decide (d.phase ≠ 1)

/-- Byte ranges that a DRAW reads: its sources and its sequence records (R176). -/
def DrawWords.sources (d : DrawWords) : List (Nat × Nat) :=
  (d.srcLine * 64, d.srcEnd) :: if d.usesRecords then [(d.seqLine * 64, d.seqLine * 64 + 16 * d.nrows)] else []

/-- The Riffle items that row r needs: stream, first index, log2 of the width, count (R178, R186). -/
def DrawWords.items (d : DrawWords) (m : Mem) (r : Nat) : Nat × Nat × Nat × Nat :=
  let rec' := d.record m r
  if d.compat then
    ((d.stream + rec'.id) % 2 ^ 32, (rec'.pos % 2 ^ 32) * 2 ^ 32 + d.vocabBase, 5, if d.phase = 2 then 0 else d.segLen)
  else (d.stream, (rec'.id * 2 ^ 24 + rec'.pos) % 2 ^ 64, 6, if d.phase = 1 then 0 else 1)

/-- Insertion of a candidate into a best-first list of at most k entries by the MAXI order (R177). -/
def insertBest (k : Nat) (list : List Pair) (cand : Pair) : List Pair := (mergeBest (list.length + 1) list [cand]).take k

/-- The best k of a list of candidates, best first, with no padding. -/
def bestOf (k : Nat) (cands : List Pair) : List Pair := cands.foldl (insertBest k) []

/-- List of k entries padded with (-inf, 0xFFFF_FFFF) (R177). -/
def padList (k : Nat) (l : List Pair) : List Pair := l ++ List.replicate (k - l.length) (extremeEmpty false)

/-- The flags of a rounding to FP32 by RN, and of the operation that formed the value. -/
def rn32Flags (args : List Val) (v : Val) : Flags :=
  let e := (toFloat fp32 .rn false false 0 v).2
  { e with nv := e.nv || nvOf args v }

/-- A tempered candidate (R177): y = rn32(x * INV_TEMP). -/
def DrawWords.temper (d : DrawWords) (x : Val) : Val × Flags :=
  let t := f32 d.invTemp
  let v := x.mul t
  (rn32 v, rn32Flags [x, t] v)

/-- The native candidates of one row's segment (R177). -/
def DrawWords.nativeList (d : DrawWords) (m : Mem) (r : Nat) : List Pair × Flags :=
  let ys := (d.scores m r).map d.temper
  (padList d.topK (bestOf d.topK (ys.mapIdx fun e y =>
      canonExtreme ⟨encF32 y.1, BitVec.ofNat 32 (d.vocabBase + e)⟩)),
    ys.foldl (fun (g : Flags) y => g.or y.2) {})

/-- The single best COMPAT entry of one row's segment (R186). -/
def DrawWords.compatEntry (d : DrawWords) (seed : Nat) (m : Mem) (r : Nat) (rec : SeqRec) : Pair × Flags :=
  let cs := (d.scores m r).mapIdx fun e x =>
    let y := d.temper x
    let idx := (d.vocabBase + e) % 2 ^ 32
    let t := riffleBits seed ((d.stream + rec.id) % 2 ^ 32) ((rec.pos % 2 ^ 32) * 2 ^ 32 + idx) 5
    let g := gumbel32 t
    let k := y.1.add g
    ((⟨encF32 (rn32 k), BitVec.ofNat 32 idx⟩ : Pair), y.2.or (rn32Flags [y.1, g] k))
  (cs.foldl (fun best c => extremeStep false best c.1) (extremeEmpty false),
    cs.foldl (fun (g : Flags) c => g.or c.2) {})

/-- Address of row r's list in LOCAL output and in FINAL input (R173, R177, R186). -/
def DrawWords.listAddr (d : DrawWords) (line r : Nat) : Nat :=
  if d.compat then line * 64 + 8 * r else line * 64 + r * lineUp (8 * d.topK)

/-- Padding entry of R97. -/
def isPad (p : Pair) : Bool := p == extremeEmpty false

/-- Whether a FINAL list is out of order: an entry outranks one before it, or an entry follows padding (0x0221). -/
def listBad : List Pair → Bool
  | a :: b :: rest => extremeBetter false b a || (isPad a && !isPad b) || listBad (b :: rest)
  | _ => false

/-- The sequence record after a drawn row (R183). -/
def DrawWords.advance (d : DrawWords) (r : Nat) (rec : SeqRec) (token : Nat) : List (Nat × List Byte) :=
  let a := d.recAddr r
  let stopped := decide (token = rec.stop) && decide (rec.stop ≠ 0xFFFFFFFF)
  let full := decide (rec.pos = 0xFFFFFF)
  let pos := if full then rec.pos else rec.pos + 1
  let flags := (if stopped then 2 ^ 24 else 0) + (if full then 2 ^ 25 else 0)
  [(a + 4, leBytes 4 (pos + flags)), (a + 12, leBytes 4 token)]

/-- The result record of a row. -/
def DrawWords.result (d : DrawWords) (r : Nat) (x : DrawResult) : Nat × List Byte :=
  (d.outLine * 64 + 16 * r,
    ({ x with flags := x.flags ||| (if d.compat then 1 else 0) } : DrawResult).bytes)

/-- Prefix masses of R178: each with its weight. -/
def prefixMass (m : Val) (infTop : Bool) : List Pair → Pair → List (Val × Pair × Flags)
  | [], _ => []
  | e :: es, run =>
    let v := f32 e.s
    let w := if infTop then (if v = .inf false then Val.one else Val.zero) else rn32 (rn32 (v.sub m)).exp
    let c := chainCombine run ⟨encF32 w, 0⟩
    (w, c.1, c.2) :: prefixMass m infTop es c.1

/-- STATUS of a drawn token (Table 7-9). -/
def drawnStatus (rec : SeqRec) (token : Nat) : Nat :=
  if token = rec.stop && rec.stop != 0xFFFFFFFF then 1 else 0

/-- The decision of one native row (R178). -/
def DrawWords.nativeRow (d : DrawWords) (seed r : Nat) (rec : SeqRec) (list : List Pair) : RowOut :=
  let real := list.takeWhile fun p => !isPad p
  let none_ (status token : Nat) (f : Flags) : RowOut :=
    { writes := [d.result r { token := token, pos := rec.pos, status := status }], flags := f }
  match real with
  | [] => none_ 3 0xFFFFFFFF {}
  | top :: _ =>
    if isNan32 top.s then none_ 2 top.c.toNat { nv := true }
    else if top.s = 0xFF800000 then none_ 3 0xFFFFFFFF {}
    else
      let m := f32 top.s
      let infTop := decide (m = .inf false)
      let ps := prefixMass m infTop real Pair.zero
      let z := ((ps.getLast?).map fun p => p.2.1.val).getD Val.zero
      let lim := (f32 d.topP).mul z
      let cut := (ps.takeWhile fun p => p.2.1.val.cmp lim = .lt).length
      let zc := ((ps[cut]?).map fun p => p.2.1.val).getD Val.zero
      let idx := (rec.id * 2 ^ 24 + rec.pos) % 2 ^ 64
      let t := riffleBits seed d.stream idx 6
      let theta := (Val.fin false (2 * t + 1) (-65)).mul zc
      let j := (ps.takeWhile fun p => p.2.1.val.cmp theta != .gt).length
      let e := real.getD j top
      let w := ((ps[j]?).map fun p => p.1).getD Val.zero
      let token := e.c.toNat
      let prob := encF32 (rn32 (w.div zc))
      { writes := d.result r { token := token, pos := rec.pos, prob := prob, cutN := cut + 1
                               status := drawnStatus rec token, flags := if infTop then 2 else 0 } ::
          d.advance r rec token
        flags := ps.foldl (fun (g : Flags) p => g.or p.2.2) {} }

/-- The decision of one COMPAT row from its best entry (R188). -/
def DrawWords.compatRow (d : DrawWords) (r : Nat) (rec : SeqRec) (e : Pair) : RowOut :=
  let token := e.c.toNat
  if isNan32 e.s then
    { writes := [d.result r { token := token, pos := rec.pos, status := 2 }], flags := { nv := true } }
  else if e.s = 0xFF800000 then { writes := [d.result r { token := 0xFFFFFFFF, pos := rec.pos, status := 3 }] }
  else
    { writes := d.result r { token := token, pos := rec.pos, status := drawnStatus rec token
                             flags := if e.s = 0x7F800000 then 2 else 0 } :: d.advance r rec token }

/-- The rows that draw nothing whatever the scores: a malformed record, DONE, FULL (R178, R180, R188). -/
def DrawWords.early (d : DrawWords) (r : Nat) (rec : SeqRec) : Option RowOut :=
  if rec.bad then some
    { writes := [d.result r { token := 0xFFFFFFFF, pos := rec.pos, status := 3 }], raise := some 0x0222 }
  else if rec.done then some { writes := [d.result r { token := 0xFFFFFFFF, pos := rec.pos, status := 4 }] }
  else if rec.full then some { writes := [d.result r { token := 0xFFFFFFFF, pos := rec.pos, status := 5 }] }
  else none

/-- One row of a WHOLE DRAW (R177, R178, R186, R188). The scores become candidates whatever the record says (R177, R186), except that the
key of a COMPAT candidate needs a well-formed record (log 54). -/
def DrawWords.wholeRow (d : DrawWords) (seed : Nat) (m : Mem) (r : Nat) : RowOut :=
  let rec' := d.record m r
  let joined := fun (o : RowOut) (f : Flags) => { o with flags := o.flags.or f }
  if d.compat then
    let e := if rec'.bad then (extremeEmpty false, {}) else d.compatEntry seed m r rec'
    joined ((d.early r rec').getD (d.compatRow r rec' e.1)) e.2
  else
    let l := d.nativeList m r
    joined ((d.early r rec').getD (d.nativeRow seed r rec' l.1)) l.2

/-- One row of a LOCAL DRAW: it writes its list or entry; COMPAT reads the sequence record (R177, R180, R186, R187). -/
def DrawWords.localRow (d : DrawWords) (seed : Nat) (m : Mem) (r : Nat) : RowOut :=
  if d.compat then
    let rec' := d.record m r
    if rec'.bad then
      { writes := [(d.listAddr d.outLine r, pairBytes [extremeEmpty false])], raise := some 0x0222 }
    else
      let e := d.compatEntry seed m r rec'
      { writes := [(d.listAddr d.outLine r, pairBytes [e.1])], flags := e.2 }
  else
    let l := d.nativeList m r
    { writes := [(d.listAddr d.outLine r, pairBytes l.1)], flags := l.2 }

/-- One row of a FINAL DRAW on its merged list or entry (R178, R188); a list out of order stops the DRAW whatever the record says (R192;
log 54). A signalling NaN that is read raises NV (R38). -/
def DrawWords.finalRow (d : DrawWords) (seed : Nat) (m : Mem) (r : Nat) : RowOut :=
  let rec' := d.record m r
  let list := readPairs m (d.listAddr d.srcLine r) (max 1 d.topK)
  let read : Flags := { nv := list.any fun p => (f32 p.s).isSnan }
  let joined := fun (o : RowOut) => { o with flags := o.flags.or read }
  if d.compat then joined ((d.early r rec').getD (d.compatRow r rec' (list.getD 0 (extremeEmpty false))))
  else if listBad list then { flags := read, raise := some 0x0221 }
  else joined ((d.early r rec').getD (d.nativeRow seed r rec' list))

/-- One row of a DRAW by its phase (R173). -/
def DrawWords.row (d : DrawWords) : Nat → Mem → Nat → RowOut :=
  match d.phase with
  | 0 => d.wholeRow
  | 1 => d.localRow
  | _ => d.finalRow

end Sys2Proof.Machine
end

