-- ==== Sys2Proof/Machine/Entropy.lean ====
section
/-! DEFINITION. Headwater: health failures, startup tests, known-answer tests and masking (chapter 15). -/

namespace Sys2Proof.Machine

/-- A request as it waits (R439, R452), and back. -/
def Req.waiter (r : Req) : Waiter :=
  { box := r.box, opcode := r.opcode, tag := r.tag, flags := r.flags, seq := r.seq, header := r.header, payload := r.payload }

def Waiter.req (w : Waiter) : Req :=
  { box := w.box, opcode := w.opcode, tag := w.tag, flags := w.flags, seq := w.seq, header := w.header, payload := w.payload }

/-- The request as its reply names it: JOB_SUBMIT is answered under JOB_ACCEPTED (R339). -/
def Req.answer (r : Req) : Req := if r.opcode = 0x40 then { r with opcode := 0x41 } else r

/-- In FAILED the requests that wait are answered ST_ENTROPY_FAIL; an ENTROPY_GET is answered at its own time limit (R439, R441). -/
def State.failWaiters (s : State) : State :=
  if s.ent.state = .failed then
    let go := s.ent.waiters.filter fun w => decide (w.opcode ≠ 0x70)
    let s := { s with ent := { s.ent with waiters := s.ent.waiters.filter fun w => decide (w.opcode = 0x70) } }
    go.foldl (fun s w => s.reply w.req.answer .entropyFail []) s
  else s

/-- Set bits of a word. -/
def countBits (n x : Nat) : Nat := ((List.range n).filter fun k => x.testBit k).length

def EntropyState.pairs (e : EntropyState) : Nat := countBits 16 e.pairEn.toNat
def EntropyState.sentinels (e : EntropyState) : Nat := countBits 24 e.sentEn.toNat

/-- Output stops: k destroyed, partial and buffered conditioned bits discarded (R437, steps 1 and 2). -/
def EntropyState.stop (e : EntropyState) (st : HwState) : EntropyState :=
  { e with key := List.replicate 64 0, seeded := false, ctr := 0, state := st }

/-- Two fresh blocks conditioned, the expander seeded, RUN entered (R432, R435, R437). -/
def EntropyState.enterRun (e : EntropyState) (source : Bool) : EntropyState :=
  { ({ e with source := source } : EntropyState).seed with state := .run }

/-- The sentinel pool exists: stewards run in MODE RUN, or in RECOVERY with stewards loaded (R425), and not in deep idle (R452). -/
def State.stewardsRun (s : State) : Bool :=
  !s.power.deepIdle && (decide (s.firm.mode = .run) || (decide (s.firm.mode = .recovery) && !s.firm.stewards.isEmpty))

/-- The PLAT key pair of this BOOT_EPOCH, drawn once Headwater runs (Table 14-8). -/
def State.platKey (s : State) : State :=
  if s.ent.state = .run && s.trust.plat.isNone then
    let k := s.drawKeyPair
    { k.2 with trust := { k.2.trust with plat := some k.1 } }
  else s

/-- A failure of a unit in RUN (R437): what follows after the unit, a pair or a sentinel of the pool, has been disabled and its detector
raised. -/
def State.hwFail (s : State) (pool : Bool) : State :=
  let e := s.ent.stop .switching
  let s := { s with ent := e }
  if !e.source && decide (12 ≤ e.pairs) then { s with ent := e.enterRun false }
  else if pool && e.source && decide (16 ≤ e.sentinels) then { s with ent := e.enterRun true }
  else if pool && e.source then { s with ent := { e with state := .failed } }
  else if s.stewardsRun then s
  else { s with ent := { e with state := .failed } }

/-- Location of a Headwater unit: the control die, unit = pair; a sentinel lies on its die. -/
def pairLoc (n : Nat) : Loc := { die := 0x40, unit := n }

/-- A pair fails a continuous test (R437). -/
def State.pairFailed (s : State) (pair test det : Nat) : State :=
  if s.ent.state = .run && decide (pair < 16) && s.ent.pairEn.getLsbD pair then
    let bit := BitVec.ofNat 16 (2 ^ pair)
    let s := { s with ent := { s.ent with pairEn := s.ent.pairEn &&& ~~~ bit, pairFail := s.ent.pairFail ||| bit,
                                          lastTest := BitVec.ofNat 3 test, lastUnit := BitVec.ofNat 5 pair } }
    ((s.raise { det := det, loc := pairLoc pair, units := some s.bootEpoch }).hwFail false).failWaiters
  else s

/-- A Headwater pair reaches its repetition cutoff (R427, R437). -/
def execHwRct (pair : Nat) (s : State) : Host.Outcome State Fault Refusal := .next (finish s (s.pairFailed pair 1 0x0801))

/-- A Headwater pair reaches its proportion cutoff (R427, R437). -/
def execHwApt (pair : Nat) (s : State) : Host.Outcome State Fault Refusal := .next (finish s (s.pairFailed pair 2 0x0802))

/-- A pool sentinel fails a continuous test (R437): when the pool is the source, it continues with at least 16, else FAILED; when the pairs
are, output goes on from them after a fresh seed. -/
def execSentHealth (die : Nat) (apt : Bool) (s : State) : Host.Outcome State Fault Refusal :=
  .next (finish s (
    if s.ent.state = .run && decide (die < 24) && s.ent.sentEn.getLsbD die then
      let bit := BitVec.ofNat 24 (2 ^ die)
      let s := { s with ent := { s.ent with sentEn := s.ent.sentEn &&& ~~~ bit, sentFail := s.ent.sentFail ||| bit,
                                            lastTest := if apt then 2 else 1, lastUnit := BitVec.ofNat 5 die } }
      ((s.raise { det := 0x0806, loc := { die := die } }).hwFail true).failWaiters
    else s))

/-- The units that failed a startup test, one event each (R429, Table 15-7). -/
def State.startupFails (s : State) (n : Nat) (passed : Nat) (loc : Nat → Loc) : State :=
  (List.range n).foldl (fun s k =>
    if passed.testBit k then s else s.raise { det := 0x0803, loc := loc k, units := some s.bootEpoch }) s

/-- The last unit that failed a startup test stands in LAST_TEST and LAST_UNIT (Table 15-4). -/
def EntropyState.noteStartup (e : EntropyState) (n passed : Nat) : EntropyState :=
  match (List.range n).reverse.find? fun k => !(passed.testBit k) with
  | some k => { e with lastTest := 3, lastUnit := BitVec.ofNat 5 k }
  | none => e

/-- A source fails its startup test (R435, R437, R438): by its units, or by a known-answer test. -/
def State.sourceFailed (s : State) (e : EntropyState) (kat : Bool) : State :=
  let s := s.raise { det := if kat then 0x0803 else 0x0804, loc := pairLoc 0xFFFF }
  { s with ent := { e.stop .failed with lastTest := if kat then 3 else 4, lastUnit := if kat then e.lastUnit else 0 } }.failWaiters

/-- A startup test completes (R426, R429, R435, R437): of the pairs in STARTUP, of the pool in SWITCHING. A sentinel that has failed stays
disabled unless a SELFTEST runs the test. -/
def execStartupTest (passed : BitVec 24) (kat : Bool) (s : State) : Host.Outcome State Fault Refusal :=
  .next (finish s (
    match s.ent.state with
    | .startup =>
      let en := (List.range 16).foldl (fun n k =>
        if passed.getLsbD k && !(s.repairs.contains (repairEntry 6 k)) then n ||| 2 ^ k else n) 0
      let tested := (List.range 16).foldl (fun n k =>
        if passed.getLsbD k || s.repairs.contains (repairEntry 6 k) then n ||| 2 ^ k else n) 0
      let s := s.startupFails 16 tested pairLoc
      let e := ({ s.ent with pairEn := BitVec.ofNat 16 en, pairFail := BitVec.ofNat 16 (65535 - tested) } : EntropyState).noteStartup 16 tested
      if 12 ≤ e.pairs && kat then ({ s with ent := e.enterRun false }).platKey else s.sourceFailed e kat
    | .switching =>
      let out := if s.ent.readmit then 0 else s.ent.sentFail
      let s := s.startupFails 24 (passed ||| out).toNat fun k => { die := k }
      let e := ({ s.ent with sentEn := passed &&& ~~~ out, sentFail := s.ent.sentFail ||| ~~~ passed, readmit := false } :
        EntropyState).noteStartup 24 (passed ||| out).toNat
      if 16 ≤ e.sentinels && kat then
        (({ s with ent := e.enterRun true }).raise { det := 0x0808, loc := { die := 0x40 } }).platKey
      else s.sourceFailed e kat
    | _ => s))

/-- A known-answer failure or a parity error (R438): FAILED directly. -/
def State.katFailed (s : State) (kind : Nat) : State :=
  let det := if kind = 4 then 0x0804 else if kind = 5 then 0x0805 else 0x0807
  let s := { s with ent := { s.ent.stop .failed with lastTest := BitVec.ofNat 3 (if kind = 4 ∨ kind = 5 then kind else 6),
                                                     lastUnit := 0 } }
  (s.raise { det := det, loc := { die := 0x40 } }).failWaiters

def execKatFailure (kind : Nat) (s : State) : Host.Outcome State Fault Refusal := .next (finish s (s.katFailed kind))

/-- The known-answer tests of every 2^20 expander calls, on a spare slot (R443). -/
def execPeriodicKat (good : Bool) (s : State) : Host.Outcome State Fault Refusal :=
  .next (finish s (
    let s := { s with ent := { s.ent with sinceKat := 0 } }
    if good then s else s.katFailed 5))

/-- Every 10 ms each crypto engine's masking generator takes 256 fresh bits, while output flows (R439, class 4). -/
def execMaskingReseed (s : State) : Host.Outcome State Fault Refusal :=
  .next (finish s (
    if s.ent.state = .run then
      let r := s.drawPlain 32
      { r.2 with ent := { r.2.ent with masks := r.2.ent.masks.set 0 r.1 } }
    else s))

end Sys2Proof.Machine
end

