-- ==== Sys2Proof/Machine/Power.lean ====
section
/-! DEFINITION. Supplies, reset, limiters, sleep, droop, ageing and clock requests (chapters 16 and 18). -/

namespace Sys2Proof.Machine

/-! ## Shared operations -/

/-- The activation reply (R381): STATUS, REASON and the BUILD_ID of the running image. -/
def State.actReply (s : State) (st : Status) (reason : Nat) : State :=
  let build := match s.firm.image with
    | some g => g.buildId.toNat
    | none => 0
  s.reply { box := 0, opcode := 0x14, tag := s.firm.actTag } st (beBytes 1 reason ++ [0, 0, 0] ++ beBytes 8 build)

/-- An activation in WAITING ends with ST_ABORTED (R385). -/
def State.actAbort (s : State) (reason : Nat) : State :=
  if s.firm.phase = .waiting then
    let s := { s with firm := { s.firm with phase := .idle } }
    (s.actReply .aborted reason).tracePoint 0x0C21 0 0 [BitVec.ofNat 8 reason]
  else s

/-- What follows when an emergency begins: an activation in WAITING ends (R385, R458). -/
def State.emergencyBegan (s : State) : State := if s.power.emergency then s.actAbort 1 else s

/-- An episode begins unless one of the same cause and die is in progress (R469). -/
def State.beginEpisode (s : State) (cause die : Nat) : State :=
  if s.power.episodes.any (fun e => decide (e.cause = cause) && decide (e.die = die)) then s
  else { s with power := { s.power with episodes := s.power.episodes ++ [(⟨cause, die, s.clock.ref⟩ : Episode)] } }

/-- An episode ends: EVENT LIMITER, unless one of the same cause and die was reported in the last 100 ms of REF (R469). -/
def State.endEpisode (s : State) (cause die : Nat) : State :=
  match s.power.episodes.find? fun e => decide (e.cause = cause) && decide (e.die = die) with
  | none => s
  | some e =>
    let others := s.power.reports.filter fun r => !(decide (r.cause = cause) && decide (r.die = die))
    let last := s.power.reports.find? fun r => decide (r.cause = cause) && decide (r.die = die)
    let merged := match last with
      | some r => r.merged
      | none => 0
    let recent := match last with
      | some r => decide (s.clock.ref < r.at_ + 2500000)
      | none => false
    let s := { s with power := { s.power with episodes := s.power.episodes.erase e } }
    if recent then
      let at0 := match last with
        | some r => r.at_
        | none => 0
      { s with power := { s.power with reports := others ++ [(⟨cause, die, at0, merged + 1⟩ : EpisodeReport)] } }
    else
      let s := { s with power := { s.power with reports := others ++ [(⟨cause, die, s.clock.ref, 0⟩ : EpisodeReport)] } }
      s.event 0 0x0007 0 (beBytes 1 cause ++ beBytes 1 die ++ [0, 0] ++ beBytes 8 e.startRef ++
        beBytes 4 ((s.clock.ref - e.startRef) / 25) ++ beBytes 4 (merged + 1))

/-- A request of Dreter outside its range, which Sheldo refuses (R371). -/
def State.grantRefused (s : State) : State := s.raise { det := 0x0C07, loc := { die := 0x40 } }

/-- A register that has become worn is reported (R394). -/
def State.pregWriteWatched (s : State) (n : Nat) (v : Word) : State :=
  let t := s.pregWrite n v
  if (s.preg n).worn then t
  else if (t.preg n).worn then t.raise { det := 0x0C06, loc := { die := 0x40, unit := n } } else t

/-- slow_ppm of R464: exact division, then floor. -/
def slowPpm (count base vMv tj kv kt : Nat) : Nat :=
  let fac : Rat := 1 + (kv : Rat) * ((vMv : Rat) - 700) / 1000000 - (kt : Rat) * ((tj : Rat) - 60) / 1000000
  let norm := ((count : Rat) / fac).floor.toNat
  if base ≤ norm then 0 else (base - norm) * 1000000 / base

/-- plan_die of R466: V_OFF and F_MAX. -/
def planDie (slow oldV oldF : Nat) : Nat × Nat :=
  let need := (slow + 6249) / 6250
  let v := max oldV (min need 16)
  let fNew := if 16 < need then max (200 - (slow - 100000 + 4999) / 5000) 50 else 200
  (v, min oldF fNew)

/-- The bank not in force, which the next plan goes to (R467). -/
def State.nextBank (s : State) : Nat := if s.planBank = some 256 then 320 else 256

/-- A plan may be written now (R393, R394, R467). -/
def State.planDue (s : State) : Bool :=
  decide (s.firm.mode = .run) && !s.power.emergency && !((List.range 64).any fun i => (s.preg (s.nextBank + i)).worn) &&
    match s.power.planAt with
    | some t => decide (t + 2160000000000 ≤ s.clock.life)
    | none => true

/-- The rail command of a die (R466): the fused V/F value for its clock plus 5 mV for each step of V_OFF, within the request range of
Table 13-10. -/
def State.railMv (s : State) (die : Nat) : BitVec 12 :=
  let d := s.diePower die
  let f := min d.fReq.toNat (s.plan die).2.1
  BitVec.ofNat 12 (min 780 (max 620 ((if f = 200 then 700 else Config.vfMv die f) + 5 * d.vOff.toNat)))

/-- The rail of a die follows its clock and V_OFF; in deep idle it stays at 0.50 V (R452, R466). -/
def State.setRail (s : State) (die : Nat) : State :=
  if s.power.deepIdle then s else s.updDie die fun d => { d with vtile := s.railMv die }

/-- The registers of the new plan: V_OFF, F_MAX and SLOW of every die, a droop step included (R461, R466). -/
def State.planWords (s : State) : List Word :=
  (List.range 24).map fun n =>
    let d := s.diePower n
    let old := s.plan n
    let p := planDie d.slow.toNat old.1 old.2.1
    let v := min 16 (max p.1 (old.1 + d.vStep))
    BitVec.ofNat 64 (max old.1 v * 2 ^ 56 + p.2 * 2 ^ 48 + d.slow.toNat * 2 ^ 24)

/-- The new plan takes effect on one die: V_OFF, a droop step's repair record, and AGE_LIMIT when F_MAX falls below 160 (R461, R466,
R467, R482). -/
def State.planApply (s : State) (n oldF : Nat) : State :=
  let d := s.diePower n
  let p := s.plan n
  let s := (s.updDie n fun d => { d with vOff := BitVec.ofNat 8 p.1, vStep := 0 }).setRail n
  let s := if 0 < d.vStep then s.repaired { det := 0x0E06, loc := { die := n }, action := 12, part := 0 } 0xFFFFFFFF else s
  if p.2.1 < 160 ∧ p.2.1 < oldF then s.raise { det := 0x0E0A, loc := { die := n } } else s

/-- Words written to consecutive registers from a base. -/
def State.pregWrites (s : State) : Nat → List Word → State
  | _, [] => s
  | n, v :: vs => (s.pregWriteWatched n v).pregWrites (n + 1) vs

/-- PLAN_NO of the next plan: one greater than the plan it replaces (Table 16-12). -/
def State.nextPlanNo (s : State) : Nat :=
  match s.planBank with
  | some x => s.planNo x + 1
  | none => 1

/-- A new plan written into the bank not in force: registers 1-62, then 0, then 63 (R466, R467). A write cut short leaves the
bank invalid. -/
def State.writePlan (s : State) (whole : Bool) : State :=
  let b := s.nextBank
  let t := s.pregWrites (b + 1) (s.planWords ++ List.replicate 38 0)
  if !whole then t
  else
    let t := t.pregWriteWatched b (BitVec.ofNat 64 (s.nextPlanNo % 2 ^ 32 * 2 ^ 32 + 2 ^ 16))
    let t := t.pregWriteWatched (b + 63) (t.bankCheck b)
    let t := { t with power := { t.power with planAt := some t.clock.life } }
    let t := (List.range 24).foldl (fun t n => t.planApply n (s.plan n).2.1) t
    t.tracePoint 0x0C31 0 0 []

/-- SLOW of a die: the largest slow_ppm among its enabled tiles (R464). -/
def State.dieSlow (s : State) (die : Nat) : Nat :=
  s.power.slows.foldl (fun m e =>
    if dieAt (e.1 % 48) (e.1 / 48) = die ∧ s.enabled (e.1 % 48) (e.1 / 48) then max m e.2 else m) 0

/-- A tile has no instruction, Riffle word or descriptor at work (R449). -/
def TileState.idle (x : TileState) : Bool :=
  x.array.issues.isEmpty && x.array.drains.isEmpty && x.chains.isEmpty && x.riffleBuf.isEmpty && decide (x.ferry.active = 0) &&
    !x.drawBusy && decide (x.seq.phase = .idle) && x.bar.issued.isNone

/-- The tile of a physical position is idle: outside a running job, or with no unit at work and its stream done (R449). -/
def State.tileIdle (s : State) (px py : Nat) : Bool :=
  match s.logicalAt px py with
  | some t => (s.tile t).idle && ((s.running (s.ownerOf t)).isNone || (s.tile t).ended)
  | none => true

/-- The conditions of R451 for deep idle. -/
def State.mayDeepIdle (s : State) : Bool :=
  !s.power.inReset && !s.power.deepIdle && decide (s.power.deepAfter ≠ 0) && s.journal.jobs.all (fun j => decide (j.state ≠ 0 ∧ j.state ≠ 1)) &&
    s.trib.conns.isEmpty && decide (s.firm.phase = .idle) && s.trust.rotations.isEmpty && s.err.deferred.isEmpty &&
    decide (s.ent.state = .run)

/-! ## Reset and supplies -/

/-- RESET_N low for 5 us (R500): a device reset; in a thermal trip, its rising edge ends the trip only when every sensor reads
90 degrees or less (R455, R503). -/
def execResetN (s : State) : Host.Outcome State Fault Refusal :=
  .next (finish s (
    if s.power.trip then
      if s.power.dies.all fun e => decide (e.2.tj.toNat ≤ 90) then
        { s with power := { s.power with trip := false, thermTripN := true } }
      else s
    else if s.power.inReset then s
    else { s with resetReq := some .resetN }))

/-- The register of the BOOT_EPOCH rotation that is written next: after the last written, worn ones left out (Table 13-13,
R394). -/
def State.epochRegister (s : State) : Option Nat :=
  let last := (List.range 8).foldl (fun b i => if (s.preg (16 + b)).value.toNat < (s.preg (16 + i)).value.toNat then i else b) 0
  ((List.range 8).map fun k => 16 + (last + 1 + k) % 8).find? fun n => !(s.preg n).worn

/-- Supplies and clocks as they are once the panel has left reset (R499). -/
def PowerState.released (p : PowerState) : PowerState :=
  { p with inReset := false, auxUp := true, refUp := true, railsOn := true, pwrOk := true, txIdle := false }

/-- BOOT_EPOCH one higher, in its next register (R373 step 2, R394). -/
def State.countBoot (s : State) : State :=
  match s.epochRegister with
  | some n => s.pregWriteWatched n (BitVec.ofNat 64 (s.bootEpoch + 1))
  | none => s

/-- The host ports that the repair list leaves in service come up (R373 step 3, R483). -/
def State.startHost (s : State) : State :=
  let up := fun k => !(s.repairs.contains (repairEntry 5 (0xF0 + k)))
  { s with host := { s.host with ports := [(0, ⟨up 0, !up 0⟩), (1, ⟨up 1, !up 1⟩)] } }

/-- The panel leaves reset (R373 steps 1-3, R499): ROM self-test, BOOT_EPOCH, host ports, KEEPALIVE with MODE BOOT. -/
def execColdStart (romOk kat : Bool) (s : State) : Host.Outcome State Fault Refusal :=
  .next (finish s (
    if !s.power.inReset || s.power.trip then s
    else
      let s := ({ s with power := s.power.released } : State).countBoot.startHost
      let s := if romOk then s else s.raise { det := 0x0D05, loc := { die := 0x40 } }
      if kat then s else s.raise { det := 0x0D06, loc := { die := 0x40 } }))

/-- 12 V AUX leaves its range (R503): the VIN rails go off, and RWS fields, SPILLWAY and the ring are lost. -/
def execAuxLoss (s : State) : Host.Outcome State Fault Refusal :=
  .next (finish s { s with resetReq := some .powerOn })

/-- REFCLK_25M without an edge for 10 us (R448). -/
def execRefLoss (s : State) : Host.Outcome State Fault Refusal :=
  .next (finish s (if s.power.inReset then { s with power := { s.power with refUp := false } }
    else s.raise { det := 0x0E09, loc := { die := 0x40 } }))

/-- VIN below 41.0 V for 2 us (R459): DIP and EMERGENCY set, every tile clock halved; a hold in force gives way to it. -/
def execVinDip (vin : BitVec 16) (s : State) : Host.Outcome State Fault Refusal :=
  .next (finish s (
    if s.power.inReset then s
    else
      let s := s.beginEpisode 1 0xFF
      ({ s with power := { s.power with dip := true, hold := false, vin10mv := vin } }).emergencyBegan))

/-- VIN at or above 41.0 V for 20 us (R459): DIP clears, HOLD sets. -/
def execDipRecovery (s : State) : Host.Outcome State Fault Refusal :=
  .next (finish s (if s.power.dip then { s with power := { s.power with dip := false, hold := true } } else s))

/-- The 2 ms hold ends (R459, R469): HOLD clears, detector 0x0E01, EVENT LIMITER. -/
def execDipHoldEnd (s : State) : Host.Outcome State Fault Refusal :=
  .next (finish s (
    if s.power.hold && !s.power.dip then
      (({ s with power := { s.power with hold := false } }).raise { det := 0x0E01, loc := { die := 0x40 } }).endEpisode 1 0xFF
    else s))

/-- VIN below 37.0 V for 1 us (R460). -/
def execVinBrownout (s : State) : Host.Outcome State Fault Refusal :=
  .next (finish s (if s.power.inReset then s else { s with resetReq := some .brownout }))

/-! ## Limiters -/

/-- A junction at 105 degrees (R455): a compute die is clamped; an edge I/O die or the control die counts as an emergency. -/
def execTjClamp (die : Nat) (temp : BitVec 8) (s : State) : Host.Outcome State Fault Refusal :=
  .next (finish s (
    if s.power.inReset then s
    else if die < 24 then
      let s := (s.updDie die fun d => { d with tj := temp, tjClamp := true }).beginEpisode 2 die
      (s.raise { det := 0x0E03, loc := { die := die } }).emergencyBegan
    else
      let s := s.updDie die fun d => { d with tj := temp }
      let s := { s with power := { s.power with hotDies := if s.power.hotDies.contains die then s.power.hotDies
                                                           else die :: s.power.hotDies } }
      (s.raise { det := 0x0E03, loc := { die := die } }).emergencyBegan))

/-- A junction at or below 100 degrees for 1 ms (R455, R458). -/
def execTjClampEnd (die : Nat) (temp : BitVec 8) (s : State) : Host.Outcome State Fault Refusal :=
  .next (finish s (
    let s := s.updDie die fun d => { d with tj := temp }
    if 100 < temp.toNat then s
    else if die < 24 then (s.updDie die fun d => { d with tjClamp := false }).endEpisode 2 die
    else { s with power := { s.power with hotDies := s.power.hotDies.erase die } }))

/-- A sensor at 118 degrees (R455): THERM_TRIP_N low, every rail but VAON off, no BYE and no LEAVE. -/
def execThermTrip (die : Nat) (temp : BitVec 8) (s : State) : Host.Outcome State Fault Refusal :=
  .next (finish s { (s.updDie die fun d => { d with tj := temp }) with resetReq := some .thermTrip })

/-- A VTILE command reaches 0.80 V and is held there (R456). -/
def execRailClamp (die : Nat) (s : State) : Host.Outcome State Fault Refusal :=
  .next (finish s (
    if s.power.inReset then s
    else
      let s := (s.updDie die fun d => { d with vtile := 800, railClamp := true }).beginEpisode 3 die
      (s.raise { det := 0x0E05, loc := { die := die } }).emergencyBegan))

/-- A VTILE command at or below 0.79 V for 100 us (R456). -/
def execRailClampEnd (die : Nat) (mv : BitVec 12) (s : State) : Host.Outcome State Fault Refusal :=
  .next (finish s (
    if mv.toNat ≤ 790 && (s.diePower die).railClamp then
      (s.updDie die fun d => { d with vtile := mv, railClamp := false }).endEpisode 3 die
    else s))

/-- A blade inlet above 200 A for 50 us (R457). -/
def execBladeLimit (s : State) : Host.Outcome State Fault Refusal :=
  .next (finish s (
    if s.power.inReset then s
    else
      let s := ({ s with power := { s.power with blade := true } }).beginEpisode 4 0xFF
      (s.raise { det := 0x0E07, loc := { die := 0x40 } }).emergencyBegan))

/-- 2 ms after the current has fallen below 190 A (R457). -/
def execBladeLimitEnd (s : State) : Host.Outcome State Fault Refusal :=
  .next (finish s (
    if s.power.blade then ({ s with power := { s.power with blade := false } }).endEpisode 4 0xFF else s))

/-- A droop event (R461): the stretch changes timing only; DROOP_CNT counts it, and so does detector 0x0E06. -/
def execDroop (die : Nat) (s : State) : Host.Outcome State Fault Refusal :=
  .next (finish s (
    (s.updDie die fun d => { d with droopCnt := BitVec.ofNat 16 (sat 16 (d.droopCnt.toNat + 1)) }).raise
      { det := 0x0E06, loc := { die := die } }))

/-- Loss of lock (Table 16-11): a tile PLL relocks and every partition on the die fails its job; a mesh PLL resets the panel. -/
def State.pllLost (die : Nat) (mesh : Bool) (s : State) : State :=
  if mesh then s.raise { det := 0x0E08, loc := { die := die, unit := 1 }, cls := some 4 }
  else
    match s.partsOnDie die with
    | [] => s.raise { det := 0x0E08, loc := { die := die, unit := 0 } }
    | p :: ps => ps.foldl (fun s q => s.fatal q false) (s.raise { det := 0x0E08, loc := { die := die, unit := 0 }, part := p })

def execPllLock (die : Nat) (mesh : Bool) (s : State) : Host.Outcome State Fault Refusal := .next (finish s (s.pllLost die mesh))

/-- The duplicate comparators of a limiter disagree (Table 16-11). -/
def execLimiterFault (die : Nat) (s : State) : Host.Outcome State Fault Refusal :=
  .next (finish s (s.raise { det := 0x0E0B, loc := { die := die } }))

/-! ## Sleep -/

/-- A tile idle for 20 us is gated (R449). -/
def execTileGate (x y : Nat) (s : State) : Host.Outcome State Fault Refusal :=
  .next (finish s (
    if s.tileIdle x y && !s.power.gated.contains (physIx x y) then
      { s with power := { s.power with gated := physIx x y :: s.power.gated } }
    else s))

/-- A gated tile restarts (R449). -/
def execTileWake (x y : Nat) (s : State) : Host.Outcome State Fault Refusal :=
  .next (finish s { s with power := { s.power with gated := s.power.gated.erase (physIx x y) } })

/-- A die with no tile in a running job and the units of every tile stopped stops its tile PLL (R31, R450). -/
def execDieSleep (die : Nat) (s : State) : Host.Outcome State Fault Refusal :=
  .next (finish s (
    let all := (List.range 13).flatMap fun k => (List.range 12).map fun c => (die % 4 * 12 + c, die / 4 * 13 + k)
    if all.all (fun t => s.unitsOff t.1 t.2) && (s.partsOnDie die).all s.atBoundary then
      s.updDie die fun d => { d with asleep := true }
    else s))

/-- A sleeping die restarts its tile PLL (R450). -/
def execDieWake (die : Nat) (s : State) : Host.Outcome State Fault Refusal :=
  .next (finish s (s.updDie die fun d => { d with asleep := false }))

/-- Deep idle is entered (R451, R452): transmitters to electrical idle, VTILE lowered to 0.50 V. -/
def execDeepIdle (s : State) : Host.Outcome State Fault Refusal :=
  .next (finish s (
    if s.mayDeepIdle then
      let s := (List.range 24).foldl (fun s n => s.updDie n fun d => { d with vtile := 500, asleep := true }) s
      { s with power := { s.power with deepIdle := true, txIdle := true },
               trib := { s.trib with ports := s.trib.ports.mapVals fun p => { p with up := false } } }
    else s))

/-- The exit from deep idle (R452): VTILE raised, the PLLs started, the transmitters and ports back. -/
def State.leaveDeepIdle (s : State) : State :=
  let t := (List.range 24).foldl (fun t n => t.updDie n fun d => { d with vtile := s.railMv n, asleep := false }) s
  { t with power := { t.power with deepIdle := false, txIdle := false, wakers := [] },
           trib := { t.trib with ports := t.trib.ports.mapVals fun p => { p with up := !p.disabled } } }

/-! ## Ageing and clocks -/

/-- A sentinel window ends (R464): slow_ppm of the tile, and SLOW of its die. -/
def execAgeWindow (x y : Nat) (count : BitVec 32) (mv tj : Nat) (s : State) : Host.Outcome State Fault Refusal :=
  .next (finish s (
    let die := dieAt x y
    let slow := slowPpm count.toNat (Config.sentBase (physIx x y)) mv tj (Config.kvPpm die) (Config.ktPpm die)
    let s := { s with power := { s.power with slows := s.power.slows.set (physIx x y) slow } }
    s.updDie die fun d => { d with slow := BitVec.ofNat 24 (sat 24 (s.dieSlow die)) }))

/-- Dreter writes a new plan into the bank not in force (R467). -/
def execPlanWrite (whole : Bool) (s : State) : Host.Outcome State Fault Refusal :=
  .next (finish s (if s.planDue then s.writePlan whole else s))

/-- Dreter requests a tile clock through Sheldo (R371, R389, R454): 0.25 to 1.00 GHz, and the rail follows it (R466); another value is
refused. -/
def execClockRequest (die : Nat) (f : BitVec 8) (s : State) : Host.Outcome State Fault Refusal :=
  .next (finish s (
    if s.firm.mode ≠ .run then s
    else if 50 ≤ f.toNat && f.toNat ≤ 200 && decide (die < 24) then (s.updDie die fun d => { d with fReq := f }).setRail die
    else s.grantRefused))

/-- Reading DIE_PWR clears DROOP_CNT (Table 16-7). -/
def execDiePwr (die : Nat) (s : State) : Host.Outcome State Fault Refusal :=
  .next (finish s ({ s with readOut := s.diePwr die }.updDie die fun d => { d with droopCnt := 0 }))

end Sys2Proof.Machine
end

