-- ==== Sys2Proof/Machine/Mailbox.lean ====
section
/-! DEFINITION. Vorla frames that arrive: the port checks, the checks of Table 12-3, sessions, acknowledgement and keepalive
(R317-R331). -/

namespace Sys2Proof.Machine

/-- Basic features (Table 12-6). -/
def basicFeatures : Word := 0xF
/-- Every bit that Table 12-6 names. -/
def definedFeatures : Word := 0xFFF0F
/-- The panel's bitmap: all of Table 12-6 in RUN, the basic set in BOOT and RECOVERY (R328, R374). -/
def State.features (s : State) : Word := if s.firm.mode = .run then definedFeatures else basicFeatures

/-- Opcodes of requests (Table 12-7). -/
def opcodeKnown (op : Nat) : Bool :=
  decide (op ∈ [0x01, 0x03, 0x04, 0x10, 0x11, 0x12, 0x13, 0x14, 0x20, 0x21, 0x22, 0x23, 0x30, 0x31, 0x32, 0x40, 0x43, 0x50, 0x51, 0x52,
    0x53, 0x60, 0x61, 0x62, 0x63, 0x70, 0x71, 0x72, 0x73, 0x80, 0x81, 0x82])

/-- Feature bit of an opcode; none where it needs no agreed bit of its own (Tables 12-6 and 12-7, R326). -/
def opcodeFeature (op : Nat) : Option Nat :=
  match op with
  | 0x10 | 0x11 | 0x12 => some 0
  | 0x13 | 0x14 => some 12
  | 0x22 | 0x23 => some 11
  | 0x30 | 0x31 => some 8
  | 0x32 | 0x80 | 0x82 => some 1
  | 0x40 | 0x43 => some 9
  | 0x50 | 0x51 | 0x52 | 0x53 => some 10
  | 0x60 | 0x62 => some 2
  | 0x61 => some 13
  | 0x63 => some 14
  | 0x70 => some 15
  | 0x71 | 0x72 => some 16
  | 0x73 => some 17
  | 0x81 => some 18
  | _ => none

/-- The feature of an opcode was agreed (Table 12-3, row 6). In mode RECOVERY the feature RECOVERY also serves the download (Table 12-6). -/
def Mailbox.agrees (b : Mailbox) (mode : Mode) (op : Nat) : Bool :=
  match opcodeFeature op with
  | some k => b.agreed.getLsbD k || (decide (k = 0 ∧ mode = .recovery) && b.agreed.getLsbD 3)
  | none => if op = 0x20 ∨ op = 0x21 then b.agreed.getLsbD 11 || decide (b.agreed &&& basicFeatures ≠ 0) else true

/-- Mailboxes an opcode is served on (Table 12-7). LOAD_BEGIN goes by its TARGET, LOG_READ by its LOG, each in the payload's first byte. -/
def opcodeMailbox (op m : Nat) (payload : List Byte) : Bool :=
  if op = 0x10 then decide ((payload.head?.getD 0 = 0) = (m = 0))
  else if op = 0x60 then decide (m = 0 ∨ payload.head?.getD 0 ≠ 0)
  else if op ∈ [0x13, 0x14, 0x30, 0x31, 0x63, 0x71, 0x72, 0x80, 0x81] then decide (m = 0)
  else if op ∈ [0x22, 0x23, 0x40, 0x43, 0x50, 0x51, 0x52, 0x53, 0x61, 0x73] then decide (m ≠ 0)
  else true

/-- Opcodes that BOOT and RECOVERY serve (R328). -/
def bootServes (op : Nat) : Bool :=
  decide (op ∈ [0x01, 0x03, 0x04, 0x20, 0x21, 0x10, 0x11, 0x12, 0x32, 0x82, 0x80, 0x60, 0x62])

/-- The null key is permitted (R320). -/
def State.nullKeyOk (s : State) (op : Nat) (f : VFrame) : Bool :=
  decide (op ∈ [0x01, 0x03, 0x04, 0x20, 0x21]) ||
    (decide (s.firm.mode ≠ .run) && (decide (op = 0x10 ∧ f.payload.head? = some 0) ||
      (decide (op = 0x11 ∨ op = 0x12) && match (s.box f.mailbox.toNat).openLoad with
        | some l => decide (l.target = 0)
        | none => false)))

/-- Header bytes of a received frame. -/
def VFrame.header (f : VFrame) (op : Nat) : List Byte :=
  beBytes 2 f.magic.toNat ++ beBytes 1 f.version.toNat ++ beBytes 1 f.flags.toNat ++ beBytes 1 f.mailbox.toNat ++
    beBytes 1 f.reserved5.toNat ++ beBytes 2 op ++ beBytes 4 f.seq.toNat ++ beBytes 4 f.ack.toNat ++ beBytes 4 f.tag.toNat ++
    beBytes 4 f.payloadLen.toNat ++ beBytes 2 f.epoch.toNat ++ beBytes 6 f.reserved26.toNat

def VFrame.isNull (f : VFrame) : Bool := f.flags.getLsbD 4
def VFrame.unseq (f : VFrame) : Bool := f.flags.getLsbD 3
def VFrame.more (f : VFrame) : Bool := f.flags.getLsbD 5

/-- R317: what a host port accepts. -/
def VFrame.accepted (f : VFrame) (op : Nat) : Bool :=
  f.etherOk && (f.toPort || (f.bcast && decide (op = 0x01))) && decide (32 + f.payloadLen.toNat + 16 ≤ f.length) &&
    decide (f.payloadLen.toNat ≤ 8192) && decide (f.payload.length = f.payloadLen.toNat)

/-- Table 12-3, row 3. -/
def State.trailerOk (s : State) (op : Nat) (f : VFrame) : Bool :=
  if f.isNull then s.nullKeyOk op f && decide (f.trailer = vTrailer nullKey (f.header op) f.payload)
  else
    match (s.box f.mailbox.toNat).kMac with
    | some k => decide (f.trailer = vTrailer k (f.header op) f.payload)
    | none => false

/-- SEQUENCE a lies before b. -/
def seqBefore (a b : BitVec 32) : Bool := decide ((b - a - 1).toNat < 2 ^ 31)

/-- An acknowledgement from the host (R322): acknowledged frames leave, JOB_DONE retires its journal entry (R341), and waiting
frames follow. -/
def State.takeAck (s : State) (m : Nat) (ack : BitVec 32) : State :=
  let b := s.box m
  let gone := b.unacked.filter fun v => seqBefore v.wire.seq ack
  let s := s.updBox m fun b => { b with unacked := b.unacked.filter fun v => !(seqBefore v.wire.seq ack) }
  let s := gone.foldl (fun s v =>
    if v.wire.opcode = 0x42 then s.retireJob (BitVec.ofNat 32 (beNat ((v.wire.payload.drop 8).take 4))) else s) s
  s.pump (s.box m).waiting.length m

/-- KEEPALIVE payload (R330). -/
def State.keepPayload (s : State) : List Byte :=
  let run := if s.power.inReset then 1 else if s.power.deepIdle then 2 else 0
  beBytes 4 s.bootEpoch ++ beBytes 2 s.panel ++ beBytes 1 s.firm.mode.code.toNat ++ beBytes 1 run ++
    beBytes 4 s.host.keepCount.toNat ++ [0, 0, 0, 0]

/-- An acknowledgement on an UNSEQ KEEPALIVE (R322). -/
def State.ackKeepalive (s : State) (m : Nat) : State := s.postUnseq m ⟨0x03, 0, 0, s.keepPayload, none⟩

/-- The mailbox exists: the admin mailbox or an existing partition (Table 12-3, row 2). -/
def State.mailboxExists (s : State) (m : Nat) : Bool := decide (m = 0) || (decide (m ≤ 64) && s.parts.has m)

/-- Requests that deep idle serves without waking (R452); JOB_SUBMIT is journaled and answered first. -/
def deepServes (s : State) (op : Nat) (payload : List Byte) : Bool :=
  decide (op ∈ [0x03, 0x04, 0x20, 0x21, 0x32, 0x40, 0x82, 0x80, 0x81, 0x62, 0x70]) ||
    (decide (op = 0x60 ∧ payload.head? = some 0) && decide (s.firm.plateNext - 262144 ≤ beNat ((payload.drop 8).take 8)))

/-- Where a session's host was last heard (R318). -/
def Mailbox.heard (f : VFrame) (b : Mailbox) : Mailbox := { b with hostMac := f.src, hostPort := f.port }

/-- A sequenced frame is counted, and its acknowledgement falls due (R322). -/
def Mailbox.counted (b : Mailbox) : Mailbox := { b with rxNext := b.rxNext + 1, ackDue := true }

/-- Row 4 of Table 12-3: a frame out of SEQUENCE changes nothing and is acknowledged at once. Any other has its sender's place and the
acknowledgement it carries taken. A mailbox without a session has no numbering, and row 5 refuses the frame. -/
def State.vorlaTake (s : State) (f : VFrame) : State × Bool :=
  let m := f.mailbox.toNat
  if !(s.box m).live then (s, true)
  else if !f.unseq && decide (f.seq ≠ (s.box m).rxNext) then (s.ackKeepalive m, false)
  else
    let s := s.updBox m (Mailbox.heard f)
    let s := if f.flags.getLsbD 6 then s.takeAck m f.ack else s
    (if f.unseq then s else s.updBox m Mailbox.counted, true)

/-- Rows 1 to 4 of Table 12-3 and the acknowledgement a frame carries. The second part says whether the frame goes on. -/
def State.vorlaFront (s : State) (op : Nat) (f : VFrame) : State × Bool :=
  let m := f.mailbox.toNat
  let port := s.host.ports.getD f.port {}
  if s.power.inReset || !port.up || port.disabled then (s, false)
  else if s.firm.phase = .committed ∨ s.firm.phase = .starting then (s, false)
  else if s.firm.mode = .recovery ∧ m ≠ 0 then (s, false)
  else if !(f.accepted op) then (s.raise { det := 0x0B02, loc := { die := 0x40, unit := f.port } }, false)
  else if f.magic ≠ 0x5A4D then (s.raise { det := 0x0B02, loc := { die := 0x40, unit := f.port } }, false)
  else if decide (f.version.toNat / 16 ≠ 1) && decide (op ≠ 0x01) then (s.replyErrorNull f op .noFeature, false)
  else if !(s.mailboxExists m) then (s.replyErrorNull f op .notReady, false)
  else if !(s.trailerOk op f) then
    ((s.raise { det := 0x0B01, loc := { die := 0x40, unit := f.port }, part := m }).replyErrorNull f op .auth, false)
  else if op = 0x01 then (if decide (f.seq ≠ 0) && (s.box m).live then s.ackKeepalive m else s, decide (f.seq = 0))
  else s.vorlaTake f

/-- Rows 5 to 7 of Table 12-3: the status that refuses the frame, if any. -/
def State.vorlaCheck (s : State) (op : Nat) (f : VFrame) : Option Status :=
  let m := f.mailbox.toNat
  let b := s.box m
  if !b.live || decide (f.epoch ≠ b.epoch) then some .noFeature
  else if !(opcodeKnown op) then some .badFormat
  else if !(opcodeMailbox op m f.payload) then some (if s.firm.mode = .run then .refused else .notReady)
  else if s.lifeCycle = 4 ∧ op ∉ [0x01, 0x03, 0x04] then some .refused
  else if decide (s.firm.mode ≠ .run) && !(bootServes op) then some .notReady
  else if !(b.agrees s.firm.mode op) then some .noFeature
  else if decide (bits f.flags.toNat 2 0 ≠ 0) || decide (f.flags.getLsbD 7) || decide (f.reserved5 ≠ 0) || decide (f.reserved26 ≠ 0) ||
      (f.unseq && decide (op ≠ 0x03 ∧ op ≠ 0x04)) || (f.more && decide (op ≠ 0x40 ∧ op ≠ 0x51)) then some .badFormat
  else if decide (16 ≤ b.outstanding.length ∧ op ≠ 0x03 ∧ op ≠ 0x04) && !(b.outstanding.contains f.tag) then some .busy
  else none

/-- The bytes of a payload field as a number, network byte order (R7). -/
def field (bs : List Byte) (off n : Nat) : Nat := beNat ((bs.drop off).take n)

/-- Reserved bytes: all zero. -/
def zeroBytes (bs : List Byte) (off n : Nat) : Bool := ((bs.drop off).take n).all fun b => decide (b = 0)

/-- A draw of classes 1-3 and 5 (R439): at once in RUN, refused in FAILED, otherwise the request waits. -/
def State.withEntropy (s : State) (r : Req) (serve : State → State) : State :=
  match s.ent.state with
  | .run => serve s
  | .failed => s.reply r.answer .entropyFail []
  | _ => { s with ent := { s.ent with waiters := s.ent.waiters ++ [r.waiter] } }

/-- A request frame that arrives: the checks of R317 and R321, then its handler. In deep idle a request that needs the sleeping
parts waits for the exit (R452). -/
def State.vorlaIn (s : State) (op : Nat) (f : VFrame) (handle : Req → State → State) : State :=
  let m := f.mailbox.toNat
  let front := s.vorlaFront op f
  let t := front.1.shaped s.fuses s.geom
  if !front.2 then t
  else
    let s := t
    match s.vorlaCheck op f with
    | some st => if (s.box m).live then s.replyError m op f.tag f.seq st else s.replyErrorNull f op st
    | none =>
      let r : Req := { box := m, opcode := op, tag := f.tag, flags := f.flags.toNat, seq := f.seq, header := f.header op,
                       payload := f.payload }
      let s := s.updBox m fun b => { b with outstanding := if b.outstanding.contains f.tag then b.outstanding
                                                           else b.outstanding ++ [f.tag] }
      if s.power.deepIdle && !(deepServes s op f.payload) then
        { s with power := { s.power with wakers := s.power.wakers ++ [r.waiter] } }
      else handle r s

/-- One more than the mailbox's last FEATURE_EPOCH, skipping 0 (R326). -/
def nextEpoch (e : BitVec 16) : BitVec 16 := if e + 1 = 0 then 1 else e + 1

/-- FEATURES payload (Table 12-5). -/
def State.featuresPayload (s : State) (agreed : Word) (epoch : BitVec 16) : List Byte :=
  beBytes 2 0 ++ beBytes 1 0x10 ++ beBytes 1 0xB1 ++ beBytes 8 agreed.toNat ++ beBytes 8 s.features.toNat ++ beBytes 2 epoch.toNat ++
    beBytes 2 s.panel ++ beBytes 4 s.bootEpoch ++ beBytes 1 s.fuses.build ++ beBytes 1 s.fuses.gradeCode ++
    beBytes 1 s.firm.mode.code.toNat ++ [0]

/-- HELLO (R326, R327): opens a session under the null key, or restarts one under its key. FEATURES of a restart goes out under
the old K_MAC, which is then destroyed. -/
def State.helloIn (s : State) (f : VFrame) : State :=
  let front := s.vorlaFront 0x01 f
  if !front.2 then front.1
  else
    let s := front.1
    let m := f.mailbox.toNat
    let b := s.box m
    if f.isNull && b.live then s.replyErrorNull f 0x01 .busy
    else if m ≠ 0 ∧ (s.box 0).epoch = 0 then s.replyErrorNull f 0x01 .notReady
    else if decide (f.flags &&& 0xAF ≠ 0) || decide (f.reserved5 ≠ 0) || decide (f.reserved26 ≠ 0) || decide (f.epoch ≠ 0) ||
        decide (f.payload.length ≠ 16) || decide ((f.payload.drop 8).any fun x => x ≠ 0) ||
        decide (BitVec.ofNat 64 (beNat (f.payload.take 8)) &&& ~~~definedFeatures ≠ 0) then
      s.replyErrorNull f 0x01 .badFormat
    else
      let hostBits := BitVec.ofNat 64 (beNat (f.payload.take 8))
      let agreed := hostBits &&& s.features &&& (if f.version.toNat / 16 = 1 then BitVec.allOnes 64 else basicFeatures)
      let epoch := nextEpoch b.epoch
      let key := b.kMac
      let s := s.updBox m fun b =>
        { b.close with live := true, hostMac := f.src, hostPort := f.port, rxNext := 1, epoch := epoch, agreed := agreed,
                       kMac := key }
      let s := s.updBox m fun b => { b with waiting := ⟨0x02, flagResp, f.tag, s.featuresPayload agreed epoch, none⟩ :: b.waiting }
      let s := s.pump 1 m
      s.updBox m fun b => { b with kMac := none, kData := none }

/-- HELLO (R326). -/
def execHello (f : VFrame) (s : State) : Host.Outcome State Fault Refusal := .next (finish s (s.helloIn f))

/-- Host KEEPALIVE keeps its session alive (R323); it asks for no reply. -/
def execKeepalive (f : VFrame) (s : State) : Host.Outcome State Fault Refusal :=
  .next (finish s (s.vorlaIn 0x03 f fun r s => s.settle r))

/-- Host BYE closes the session and destroys the mailbox key (R331). -/
def execByeFrame (f : VFrame) (s : State) : Host.Outcome State Fault Refusal :=
  .next (finish s (s.vorlaIn 0x04 f fun r s => s.updBox r.box Mailbox.close))

/-- An unacknowledged frame goes out again, unchanged, to where the session's host was last heard (R318, R323). -/
def State.resendFrame (s : State) (m : Nat) (w : VWire) : State :=
  s.putWire { w with port := (s.box m).hostPort, dst := (s.box m).hostMac }

/-- The retransmission timer of a panel frame (R323): sent again, the interval doubled up to 64 ms, detector 0x0B03. -/
def execVorlaRetx (mailbox : Nat) (seq : BitVec 32) (s : State) : Host.Outcome State Fault Refusal :=
  .next (finish s (
    match (s.box mailbox).unacked.find? fun v => decide (v.wire.seq = seq) with
    | none => s
    | some v =>
      let port := (s.box mailbox).hostPort
      let s := (s.resendFrame mailbox v.wire).updBox mailbox fun b =>
        { b with unacked := b.unacked.map fun u => if u.wire.seq = seq then { u with interval := min 64 (2 * u.interval) } else u }
      s.raise { det := 0x0B03, loc := { die := 0x40, unit := port }, part := mailbox }))

/-- 100 us have passed with a host frame unacknowledged (R322). -/
def execAckDeadline (mailbox : Nat) (s : State) : Host.Outcome State Fault Refusal :=
  .next (finish s (if (s.box mailbox).live && (s.box mailbox).ackDue then s.ackKeepalive mailbox else s))

/-- A session expires (R323): key destroyed, frames discarded but JOB_DONE and EVENT; jobs go on. -/
def execSessionExpiry (mailbox : Nat) (s : State) : Host.Outcome State Fault Refusal :=
  .next (finish s (if (s.box mailbox).live then s.updBox mailbox Mailbox.close else s))

/-- A KEEPALIVE of the always-on domain on one port (R330). -/
def State.keepOn (s : State) (port : Nat) : State :=
  let b := s.box 0
  let payload := s.keepPayload
  let flags := flagUnseq + flagNull
  let header := vHeader 0x10 flags 0 0x03 0 0 0 payload.length 0
  s.putWire { port := port, dst := if b.live then b.hostMac else macBroadcast, mailbox := 0, opcode := 0x03, flags := flags, seq := 0,
              ack := 0, tag := 0, epoch := 0, payload := payload, trailer := vTrailer nullKey header payload }

/-- KEEPALIVE on both host ports every 10 ms (R330). -/
def execKeepaliveSend (s : State) : Host.Outcome State Fault Refusal :=
  .next (finish s (
    if s.power.auxUp then
      let s := (s.keepOn 0).keepOn 1
      { s with host := { s.host with keepCount := s.host.keepCount + 1 } }
    else s))

/-- A host port's link changes (R368): detector 0x0B04 when it goes down or is retrained. -/
def execHostLink (port : Nat) (up retrained : Bool) (s : State) : Host.Outcome State Fault Refusal :=
  .next (finish s (
    let p := s.host.ports.getD port {}
    if port < 2 && !p.disabled && !s.power.inReset then
      let s := { s with host := { s.host with ports := s.host.ports.set port { p with up := up } } }
      if (p.up && !up) || retrained then s.raise { det := 0x0B04, loc := { die := 0x40, unit := port }, place := port } else s
    else s))

end Sys2Proof.Machine
end

