-- ==== Sys2Proof/Machine/Trust.lean ====
section
/-! DEFINITION. Sheldo: mailbox and link sessions, attestation, life cycle, key rotation, weight delivery and the test port
(chapter 14, R502). -/

namespace Sys2Proof.Machine

/-! ## Identity -/

/-- SHAKE256 digest of a 256-bit field; a party that does not exist has 32 zero bytes. -/
def zeros32 : List Byte := List.replicate 32 0

/-- IDENTITY_KD (R403). -/
def TrustState.identityKd (t : TrustState) : List Byte :=
  match t.identity with
  | some k => digest256 (fitBytes 1793 k.1)
  | none => zeros32

/-- A Falcon-1024 identity signature over a digest, padded to 1,280 bytes. -/
def TrustState.sign (t : TrustState) (msg rnd : List Byte) : List Byte :=
  match t.identity with
  | some k => fitBytes 1280 (Config.falconSign k.2 msg rnd)
  | none => List.replicate 1280 0

/-- OPERATOR_KD: ROT_STATE registers 2-5, its bytes in network order (R399). -/
def State.operatorKd (s : State) : List Byte := (List.range 4).flatMap fun i => beBytes 8 (s.preg (2 + i)).value.toNat

/-- A failed check of chapter 14: ST_AUTH and detector 0x0D02. -/
def State.authFail (s : State) (r : Req) : State :=
  (s.raise { det := 0x0D02, loc := { die := 0x40 }, part := r.box }).reply r .auth []

/-! ## Mailbox sessions (R408, R409) -/

/-- T1 of R409. -/
def sessionT1 (mailbox : Nat) (sess : BitVec 32) (epoch : Nat) (hostNonce panelNonce ek : List Byte) : List Byte :=
  digest256 (beBytes 1 mailbox ++ beBytes 4 sess.toNat ++ beBytes 4 epoch ++ hostNonce ++ panelNonce ++ digest256 ek)

/-- MBX_OFFER (R409): a fresh ML-KEM-1024 key pair and a signed offer. -/
def State.mbxOffer (s : State) (r : Req) : State :=
  if r.payload.length ≠ 36 then s.reply r .badFormat []
  else if s.trust.identity.isNone then s.reply r .notReady []
  else s.withEntropy r fun s =>
    let d := s.drawFresh 136
    let s := d.2
    let kp := Config.kemKeyPair (d.1.take 64)
    let ek := fitBytes 1568 kp.1
    let nonce := (d.1.drop 64).take 32
    let sess := s.host.nextSess
    let t1 := sessionT1 r.box sess s.bootEpoch (r.payload.drop 4) nonce ek
    let s := { s with host := { s.host with nextSess := sess + 1 } }
    let s := s.updBox r.box fun b => { b with offer := some ⟨sess, t1, kp.2⟩ }
    s.reply r .ok (beBytes 4 sess.toNat ++ nonce ++ ek ++ s.trust.sign t1 (d.1.drop 96))

/-- HOST_KEY is the one the mailbox binds (R409). -/
def State.hostKeyOk (s : State) (m : Nat) (kd : List Byte) : Bool :=
  if m = 0 then decide (s.lifeCycle ≠ 2) || decide (kd = s.operatorKd)
  else
    match s.part m with
    | some x =>
      match x.tenantKd with
      | some t => decide (t = kd)
      | none => true
    | none => false

/-- A reply that goes out before any frame that waited for the key (R323, R409). -/
def State.replyFirst (s : State) (r : Req) (body : List Byte) : State :=
  let s := (s.settle r).updBox r.box fun b =>
    { b with waiting := (⟨r.opcode, flagResp, r.tag, beBytes 2 0 ++ [0, 0] ++ body, none⟩ : VOut) :: b.waiting }
  s.pump (s.box r.box).waiting.length r.box

/-- MBX_FINISH (R409): the keys derived and the reply under the new K_MAC. -/
def State.mbxFinish (s : State) (r : Req) : State :=
  if r.payload.length ≠ 4649 then s.reply r .badFormat []
  else
    match (s.box r.box).offer with
    | none => s.reply r .refused []
    | some o =>
      if field r.payload 4 4 ≠ o.sess.toNat then s.reply r .refused []
      else
        let ct := (r.payload.drop 8).take 1568
        let key := (r.payload.drop 1576).take 1793
        let kd := digest256 key
        let t2 := digest256 (o.t1 ++ digest256 ct)
        if !(s.hostKeyOk r.box kd) || !(Config.falconVerify key t2 (r.payload.drop 3369)) then s.authFail r
        else
          let ss := Config.kemDecaps o.dk ct
          let s := s.updPart r.box fun x => { x with tenantKd := some kd }
          let s := s.updBox r.box fun b =>
            { b with offer := none, kMac := some (kmac256 ss t2 32 "ZM1-VORLA-MAC"), kData := some (kmac256 ss t2 32 "ZM1-VORLA-DATA") }
          s.replyFirst r []

/-! ## Link sessions (R411) -/

/-- Offer or accept up to its signature (Table 14-12). -/
def State.linkBody (s : State) (peer kind : Nat) (nonce kem : List Byte) : List Byte :=
  beBytes 2 s.panel ++ beBytes 2 peer ++ beBytes 4 s.bootEpoch ++ beBytes 1 s.lifeCycle ++ beBytes 1 kind ++ List.replicate 6 0 ++
    nonce ++ fitBytes 1568 kem ++ fitBytes 4720 s.trust.cert

/-- The checks of R411 after KIND, for what precedes the message under the signature. -/
def State.linkVerify (s : State) (before m : List Byte) : Bool :=
  let cert := (m.drop 1616).take 4720
  Config.falconVerify Config.rootKey (digest256 (cert.take 3440)) (cert.drop 3440) &&
    Config.falconVerify ((cert.drop 72).take 1793) (digest256 (before ++ m.take 6336)) (m.drop 6336) &&
    decide (field m 8 1 = 2) && decide (field m 2 2 = s.panel)

/-- LINK_OFFER (R411, step 1). -/
def State.linkOffer (s : State) (r : Req) : State :=
  if r.box ≠ 0 then s.reply r .refused []
  else if r.payload.length ≠ 8 ∨ !(zeroBytes r.payload 6 2) then s.reply r .badFormat []
  else if s.trust.identity.isNone then s.reply r .notReady []
  else s.withEntropy r fun s =>
    let d := s.drawFresh 136
    let kp := Config.kemKeyPair (d.1.take 64)
    let peer := field r.payload 4 2
    let body := d.2.linkBody peer 0 ((d.1.drop 64).take 32) kp.1
    let offer := body ++ d.2.trust.sign (digest256 body) (d.1.drop 96)
    let s := { d.2 with trust := { d.2.trust with linkOffers := d.2.trust.linkOffers.set peer (offer, kp.2) } }
    s.reply r .ok offer

/-- A link secret recorded (R411); a new exchange replaces the old entry. -/
def State.recordLink (s : State) (peer : Nat) (ss offer accept : List Byte) (epoch : Nat) : State :=
  let ls := kmac256 ss (digest256 (offer ++ accept)) 32 "ZM1-LINK"
  { s with trust := { s.trust with links := s.trust.links.set peer { peer := peer, secret := ls, peerEpoch := BitVec.ofNat 32 epoch } } }

/-- The link table holds up to 65,535 entries (R411). -/
def State.linkRoom (s : State) (peer : Nat) : Bool := s.trust.links.has peer || decide (s.trust.links.length < 65535)

/-- LINK_ACCEPT (R411, step 2). -/
def State.linkAccept (s : State) (r : Req) : State :=
  let m := r.payload.drop 4
  if r.box ≠ 0 then s.reply r .refused []
  else if m.length ≠ 7616 ∨ field m 9 1 ≠ 0 ∨ !(zeroBytes m 10 6) then s.reply r .badFormat []
  else if !(s.linkVerify [] m) then s.authFail r
  else if s.trust.identity.isNone then s.reply r .notReady []
  else if !(s.linkRoom (field m 0 2)) then s.reply r .limit []
  else s.withEntropy r fun s =>
    let d := s.drawFresh 104
    let e := Config.kemEncaps ((m.drop 48).take 1568) (d.1.take 32)
    let body := d.2.linkBody (field m 0 2) 1 ((d.1.drop 32).take 32) e.1
    let accept := body ++ d.2.trust.sign (digest256 (m ++ body)) (d.1.drop 64)
    (d.2.recordLink (field m 0 2) e.2 m accept (field m 4 4)).reply r .ok accept

/-- LINK_FINISH (R411, step 3). -/
def State.linkFinish (s : State) (r : Req) : State :=
  let m := r.payload.drop 4
  if r.box ≠ 0 then s.reply r .refused []
  else if m.length ≠ 7616 ∨ field m 9 1 ≠ 1 ∨ !(zeroBytes m 10 6) then s.reply r .badFormat []
  else
    let peer := field m 0 2
    match s.trust.linkOffers.find peer with
    | none => s.authFail r
    | some o =>
      if !(s.linkVerify o.1 m) then s.authFail r
      else if !(s.linkRoom peer) then s.reply r .limit []
      else
        let ss := Config.kemDecaps o.2 ((m.drop 48).take 1568)
        let s := { s with trust := { s.trust with linkOffers := s.trust.linkOffers.erase peer } }
        (s.recordLink peer ss o.1 m (field m 4 4)).reply r .ok []

/-- Jobs connected to a peer panel end with ST_PEER_LOST (R312, R411). -/
def State.endPeerJobs (s : State) (peer : Nat) : State :=
  s.parts.foldl (fun s e =>
    if s.trib.conns.any (fun k => decide (k.part = e.1) && decide (k.peer = peer)) then s.endJob e.1 .peerLost else s) s

/-- LINK_DROP (R411). -/
def State.linkDrop (s : State) (r : Req) : State :=
  let peer := field r.payload 4 2
  if r.box ≠ 0 then s.reply r .refused []
  else if r.payload.length < 6 ∨ !(zeroBytes r.payload 6 2) then s.reply r .badFormat []
  else if !(s.trust.links.has peer) then s.reply r .refused []
  else
    ({ s with trust := { s.trust with links := s.trust.links.erase peer } }.endPeerJobs peer).reply r .ok []

/-- SESSION_OPEN by its OP (Table 14-9). -/
def State.sessionOpen (r : Req) (s : State) : State :=
  if r.payload.length < 4 ∨ !(zeroBytes r.payload 1 3) then s.reply r .badFormat []
  else
    match field r.payload 0 1 with
    | 0 => s.mbxOffer r
    | 1 => s.mbxFinish r
    | 2 => s.linkOffer r
    | 3 => s.linkAccept r
    | 4 => s.linkFinish r
    | 5 => s.linkDrop r
    | _ => s.reply r .badFormat []

def execMbxOffer (f : VFrame) (s : State) : Host.Outcome State Fault Refusal := .next (finish s (s.vorlaIn 0x20 f State.sessionOpen))
def execMbxFinish (f : VFrame) (s : State) : Host.Outcome State Fault Refusal := .next (finish s (s.vorlaIn 0x20 f State.sessionOpen))
def execLinkOffer (f : VFrame) (s : State) : Host.Outcome State Fault Refusal := .next (finish s (s.vorlaIn 0x20 f State.sessionOpen))
def execLinkAccept (f : VFrame) (s : State) : Host.Outcome State Fault Refusal := .next (finish s (s.vorlaIn 0x20 f State.sessionOpen))
def execLinkFinish (f : VFrame) (s : State) : Host.Outcome State Fault Refusal := .next (finish s (s.vorlaIn 0x20 f State.sessionOpen))
def execLinkDrop (f : VFrame) (s : State) : Host.Outcome State Fault Refusal := .next (finish s (s.vorlaIn 0x20 f State.sessionOpen))

/-- An offer expires after 10 s of REF (R409). -/
def execOfferExpiry (mailbox : Nat) (s : State) : Host.Outcome State Fault Refusal :=
  .next (finish s (s.updBox mailbox fun b => { b with offer := none }))

/-! ## Attestation (R404-R406) -/

/-- The partition record of R406. -/
def State.partRecord (s : State) (p : Nat) : List Byte :=
  match s.part p, s.rect p with
  | some x, some q =>
    beBytes 1 p ++ beBytes 1 q.x0 ++ beBytes 1 q.y0 ++ beBytes 1 q.w ++ beBytes 1 q.h ++ beBytes 1 x.flags ++
      (x.share.flatMap fun e => beBytes 1 e.1 ++ beBytes 1 e.2) ++ beBytes 4 q.census ++ x.tenantKd.getD zeros32 ++
      (match x.program with
        | some g => g.digest
        | none => zeros32) ++
      (match x.sealed_ with
        | some w => [1] ++ fitBytes 16 w.1
        | none => List.replicate 17 0)
  | _, _ => []

/-- The quote body (Table 14-7). -/
def State.quoteBody (s : State) (scope p : Nat) (nonce ekd : List Byte) : List Byte :=
  let running := match s.firm.image with
    | some g => if s.firm.mode = Mode.run then (g.svn.toNat, fitBytes 32 g.digest)
                else if s.firm.mode = Mode.boot then (0, zeros32) else (g.svn.toNat, zeros32)
    | none => (0, zeros32)
  beBytes 4 0x5A4D5154 ++ beBytes 1 s.lifeCycle ++ beBytes 1 s.firm.mode.code.toNat ++ beBytes 1 scope ++ beBytes 1 p ++
    beBytes 4 s.bootEpoch ++ beBytes 4 running.1 ++ nonce ++ s.trust.identityKd ++ digest256 Config.romImage ++
    digest256 s.trust.rotFirmware ++ running.2 ++ (if scope = 1 then digest256 (s.partRecord p) else zeros32) ++ ekd ++
    List.replicate 16 0

/-- ATTEST, OP QUOTE (R405). -/
def State.quote (s : State) (r : Req) (scope p : Nat) (withKey : Bool) : State :=
  if s.trust.identity.isNone then s.reply r .notReady []
  else s.withEntropy r fun s =>
    let d := s.drawFresh 104
    let s := d.2
    let nonce := (r.payload.drop 4).take 32
    let kp := Config.kemKeyPair (d.1.take 64)
    let ek := fitBytes 1568 kp.1
    let body := s.quoteBody scope p nonce (if withKey then digest256 ek else zeros32)
    let rel := if withKey then s.trust.release.set p (kp.2, digest256 body) else s.trust.release
    let s := { s with trust := { s.trust with quoteNonce := some nonce, release := rel } }
    s.reply r .ok (body ++ s.trust.sign (digest256 body) (d.1.drop 64) ++ (if withKey then ek else []))

/-- The transitions of Table 14-3 and who may ask for them. -/
def lifeStep (src dst : Nat) (token : Bool) : Bool :=
  match src, dst with
  | 0, 1 => !token
  | 1, 2 => true
  | 2, 2 => token
  | 2, 3 => token
  | 3, 2 => token
  | 0, 4 => true
  | 1, 4 => true
  | 3, 4 => true
  | 2, 4 => token
  | _, _ => false

/-- Registers a life-cycle transition writes 0 (Table 14-4). -/
def wipedRegisters : List Nat :=
  25 :: ((List.range 3).map (· + 32) ++ (List.range 112).map (· + 40) ++ (List.range 64).map (· + 384))

/-- A word of a 32-byte field, network order. -/
def kdWord (kd : List Byte) (i : Nat) : Word := BitVec.ofNat 64 (field kd (8 * i) 8)

/-- An accepted transition (R401): BYE and LEAVE with REASON LIFE_CYCLE, keys destroyed, ROT_STATE written, the wipe of
Table 14-4, the error-record ring cleared (R476), and the device reset at the command's end. -/
def State.lifeMove (s : State) (dst : Nat) (operatorKd : List Byte) : State :=
  let s := (s.sendBye 2).sendLeave 0 2
  let s := { s with host := { s.host with boxes := s.host.boxes.mapVals Mailbox.close } }
  let s := if dst = 4 then { s with trust := { s.trust with deviceSecret := none, identity := none, sealKey := none } } else s
  let s := s.pregWriteWatched 0 (BitVec.ofNat 64 dst)
  let s := (List.range 4).foldl (fun s i => s.pregWriteWatched (2 + i) (if dst = 2 then kdWord operatorKd i else 0)) s
  let s := wipedRegisters.foldl (fun s n => s.pregWriteWatched n 0) s
  let e := { s.err with ring := [], waiting := [], nextSeq := 0,
                        insts := s.err.insts.map fun d => { d with held := 0, heldRec := none, openRec := none } }
  { s with journal := { nextId := s.journal.nextId }, err := e, resetReq := some .orderly }

/-- The key digests and the signature of a life-cycle token (R400). -/
def State.tokenSigned (s : State) (tok : List Byte) : Bool :=
  let key := (tok.drop 100).take 1793
  decide (digest256 key = Config.lcKd) && Config.falconVerify key (digest256 (tok.take 1893)) (tok.drop 1893) &&
    decide ((tok.drop 4).take 32 = s.trust.identityKd)

/-- The token names the present state and answers the last quote (R400). -/
def State.tokenFresh (s : State) (tok : List Byte) : Bool :=
  decide (field tok 0 1 = s.lifeCycle) && decide (s.trust.quoteNonce = some ((tok.drop 36).take 32))

/-- The token checks of R400. -/
def State.tokenOk (s : State) (tok : List Byte) : Bool := s.tokenSigned tok && s.tokenFresh tok

/-- ATTEST, OP LIFECYCLE (R400, R401). -/
def State.lifecycleToken (s : State) (r : Req) : State :=
  let tok := r.payload.drop 36
  if r.box ≠ 0 then s.reply r .refused []
  else if tok.length ≠ 3173 ∨ !(zeroBytes tok 2 2) then s.reply r .badFormat []
  else if !(s.tokenSigned tok) then s.authFail r
  else if !(s.tokenFresh tok) then s.reply r .auth []
  else if !(lifeStep (field tok 0 1) (field tok 1 1) true) then s.reply r .refused []
  else if !s.geom.isEmpty then s.reply r .busy []
  else (s.reply r .ok []).lifeMove (field tok 1 1) ((tok.drop 68).take 32)

/-- WEIGHT_MODE RELEASE of a partition (Table 12-8). -/
def State.releaseMode (s : State) (p : Nat) : Bool :=
  match s.part p with
  | some x => bit x.flags 1
  | none => false

/-- ATTEST (R404). -/
def State.attest (r : Req) (s : State) : State :=
  let op := field r.payload 0 1
  let scope := field r.payload 1 1
  let p := field r.payload 2 1
  let flags := field r.payload 3 1
  let withKey := bit flags 0
  let scopeOk := if r.box = 0 then (decide (scope = 0 ∧ p = 0) || decide (scope = 1 ∧ 1 ≤ p ∧ p ≤ 64))
                 else decide (scope = 1 ∧ p = r.box)
  if r.payload.length < 36 ∨ (op ≠ 2 ∧ r.payload.length ≠ 36) ∨ 2 < op ∨ 2 ≤ flags ∨ !scopeOk ∨ (withKey && (decide (scope ≠ 1) || !(s.releaseMode p) || decide (op ≠ 0))) then
    s.reply r .badFormat []
  else if scope = 1 ∧ (s.part p).isNone then s.reply r .notReady []
  else
    match op with
    | 0 => s.quote r scope p withKey
    | 1 => if s.trust.cert.isEmpty then s.reply r .notReady [] else s.reply r .ok (fitBytes 4720 s.trust.cert)
    | _ => s.lifecycleToken r

def execQuoteBody (f : VFrame) (s : State) : Host.Outcome State Fault Refusal := .next (finish s (s.vorlaIn 0x21 f State.attest))
def execCerts (f : VFrame) (s : State) : Host.Outcome State Fault Refusal := .next (finish s (s.vorlaIn 0x21 f State.attest))
def execLifecycle (f : VFrame) (s : State) : Host.Outcome State Fault Refusal := .next (finish s (s.vorlaIn 0x21 f State.attest))

/-- A release key is destroyed 600 s after its creation (Table 14-8). -/
def execReleaseKeyExpiry (part : Nat) (s : State) : Host.Outcome State Fault Refusal :=
  .next (finish s { s with trust := { s.trust with release := s.trust.release.erase part } })

/-! ## Key rotation (R416) -/

/-- KEY_ROTATE: a fresh key in the other generation's slot, which becomes current, and the sweep begins. -/
def State.keyRotate (r : Req) (s : State) : State :=
  if r.payload.length ≠ 8 ∨ !(zeroBytes r.payload 0 8) then s.reply r .badFormat []
  else if s.trust.rotations.has r.box then s.reply r .busy []
  else s.withEntropy r fun s =>
    match s.part r.box with
    | none => s.reply r .notReady []
    | some x =>
      let k := s.drawKeyPair
      let g := x.gen
      let s := k.2
      let todo := x.mapped.filter fun v => decide (pteGen (x.pte v) = g)
      let s := { s with trust := { s.trust with memKeys := s.trust.memKeys.set (2 * (r.box - 1) + (1 - g)) k.1,
                                                rotations := s.trust.rotations.set r.box ⟨r.tag, g, todo, 0⟩ } }
      s.updPart r.box fun x => { x with gen := 1 - g }

def execKeyRotate (f : VFrame) (s : State) : Host.Outcome State Fault Refusal := .next (finish s (s.vorlaIn 0x22 f State.keyRotate))

/-- The reply of a rotation: NEW_GEN and PAGES_SWEPT. -/
def State.rotationReply (s : State) (p : Nat) (t : Rotation) (st : Status) : State :=
  s.reply { box := p, opcode := 0x22, tag := t.tag } st (beBytes 1 (1 - t.oldGen) ++ [0, 0, 0] ++ beBytes 4 t.swept)

/-- One page re-encrypted by the sequence of R240: its generation flipped, its TLB entries dropped; the acknowledgements are those of log 130. -/
def State.sweepPage (s : State) (p vpn : Nat) : State :=
  let s := s.updPart p fun x => { x with ptes := x.ptes.update vpn fun e => e ^^^ BitVec.ofNat 64 (2 ^ 62) }
  s.updTiles (s.tilesOf p) fun x => { x with ferry := { x.ferry with tlb := x.ferry.tlb.filter fun e => decide (e.1 ≠ vpn) } }

/-- A batch of up to 8 pages, none of which is locked for another change (R238, R240), or a sweep fault: detector 0x0D07, and the rotation ends ST_DATA_LOSS (R416, Table 14-11). -/
def execSweepBatch (part : Nat) (good : Bool) (s : State) : Host.Outcome State Fault Refusal :=
  .next (finish s (
    match s.trust.rotations.find part with
    | none => s
    | some t =>
      if t.todo.isEmpty then s
      else if good then
        let locked := fun (v : Nat) => match s.part part with
          | some x => pteLock (x.pte v)
          | none => false
        let now := (t.todo.filter fun v => !(locked v)).take 8
        let s := now.foldl (fun s v => s.sweepPage part v) s
        let u : Rotation := { t with todo := t.todo.filter fun v => !(now.contains v), swept := t.swept + now.length }
        { s with trust := { s.trust with rotations := s.trust.rotations.set part u } }
      else
        let s := { s with trust := { s.trust with rotations := s.trust.rotations.erase part } }
        (s.raise { det := 0x0D07, loc := { die := 0x40 }, part := part }).rotationReply part t .dataLoss))

/-- Requests of a partition in flight under a generation (R239). -/
def State.flights (s : State) (p g : Nat) : Nat :=
  (s.tilesOf p).foldl (fun n t => n + (if g = 0 then (s.tile t).ferry.flight0 else (s.tile t).ferry.flight1)) 0

/-- Every page swept and no request left under the old generation: its slot is destroyed and the rotation answers (R416). -/
def execRotationDone (part : Nat) (s : State) : Host.Outcome State Fault Refusal :=
  .next (finish s (
    match s.trust.rotations.find part with
    | none => s
    | some t =>
      if t.todo.isEmpty && decide (s.flights part t.oldGen = 0) then
        let s := { s with trust := { s.trust with rotations := s.trust.rotations.erase part,
                                                  memKeys := s.trust.memKeys.erase (2 * (part - 1) + t.oldGen) } }
        s.rotationReply part t .ok
      else s))

/-! ## Weight delivery (R417, R418) -/

/-- Two byte ranges share a byte. -/
def rangesMeet (a n b m : Nat) : Bool := decide (a < b + m) && decide (b < a + n)

/-- WK out of its WRAP: under AES-256-GCM with KW, a zero nonce and the given associated data (R418). -/
def unwrapKey (ss weightId bound wrap : List Byte) : Option (List Byte) :=
  gcmOpen (kmac256 ss (weightId ++ bound) 32 "ZM1-WEIGHT") (List.replicate 12 0) (weightId ++ bound) wrap

/-- The chunks of a container decrypted in order up to the first tag that fails: plaintext, and whether every tag held. -/
def openChunks (wk weightId : List Byte) : Nat → Nat → List Byte → List Byte × Bool
  | 0, _, _ => ([], true)
  | n + 1, c, bs =>
    match gcmOpen wk (beBytes 12 c) weightId (bs.take 65536) with
    | none => ([], false)
    | some p =>
      let t := openChunks wk weightId n (c + 1) (bs.drop 65536)
      (p ++ t.1, t.2)

/-- WEIGHT_BIND once WK is out (R417). -/
def State.bindWeights (s : State) (r : Req) (x : Part) (g : Program) (wk weightId : List Byte) (src n dst : Nat) : State :=
  let chunks := n / 65536
  let out := openChunks wk weightId chunks 0 (s.readVa x src n)
  if out.2 then
    let s := (s.writeVa x dst out.1).writeVa x src (List.replicate n 0)
    (s.updPart r.box fun x => { x with sealed_ := some (weightId, g.family) }).reply r .ok []
  else
    let s := (s.writeVa x dst (List.replicate out.1.length 0)).writeVa x src (List.replicate n 0)
    (s.raise { det := 0x0D04, loc := { die := 0x40 }, part := r.box }).reply r .auth []

/-- WRAP that fails: ST_AUTH and detector 0x0D04 (R418, Table 14-11). -/
def State.wrapFail (s : State) (r : Req) : State :=
  (s.raise { det := 0x0D04, loc := { die := 0x40 }, part := r.box }).reply r .auth []

/-- WEIGHT_BIND (R417, R418). The release key is destroyed after one use. -/
def State.weightBind (r : Req) (s : State) : State :=
  let weightId := r.payload.take 16
  let src := field r.payload 16 8
  let n := field r.payload 24 8
  let dst := field r.payload 32 8
  let blk := r.payload.drop 40
  match s.part r.box with
  | none => s.reply r .notReady []
  | some x =>
    let rel := bit x.flags 1
    if blk.length ≠ (if rel then 1616 else 1680) ∨ n % 65536 ≠ 0 then s.reply r .badFormat []
    else if x.run.isSome then s.reply r .busy []
    else
      match x.program with
      | none => s.reply r .refused []
      | some g =>
        if rangesMeet src n dst (n / 65536 * 65520) || !(x.rangeMapped src n) || !(x.rangeMapped dst (n / 65536 * 65520)) then
          s.reply r .badFormat []
        else if rel then
          match s.trust.release.find r.box with
          | none => s.reply r .notReady []
          | some k =>
            let s := { s with trust := { s.trust with release := s.trust.release.erase r.box } }
            match unwrapKey (Config.kemDecaps k.1 (blk.take 1568)) weightId k.2 (blk.drop 1568) with
            | none => s.wrapFail r
            | some wk => s.bindWeights r x g wk weightId src n dst
        else
          match s.trust.sealKey with
          | none => s.reply r .refused []
          | some sk =>
            if blk.take 32 ≠ digest256 (fitBytes 1568 sk.1) ∨ (blk.drop 32).take 32 ≠ g.family then s.reply r .refused []
            else
              match unwrapKey (Config.kemDecaps sk.2 ((blk.drop 64).take 1568)) weightId g.family (blk.drop 1632) with
              | none => s.wrapFail r
              | some wk => s.bindWeights r x g wk weightId src n dst

def execWeightBind (f : VFrame) (s : State) : Host.Outcome State Fault Refusal := .next (finish s (s.vorlaIn 0x23 f State.weightBind))

/-! ## The test port (R400, R502) -/

/-- BLANK to PROVISIONED (Table 14-3): DS from one conditioned block, identity and seal key pairs, the certificate. -/
def State.provision (s : State) (cert : List Byte) : State :=
  let b := s.ent.block
  let d := ({ s with ent := b.2 }).drawFresh 128
  let fk := Config.falconKeyPair (d.1.take 64)
  let kk := Config.kemKeyPair (d.1.drop 64)
  let s := { d.2 with trust := { d.2.trust with deviceSecret := some b.1, identity := some fk, sealKey := some kk, cert := cert } }
  s.lifeMove 1 []

/-- A test-port instruction: in FIELD and SCRAPPED only BYPASS and IDCODE; a transition needs a panel without partitions (R400),
and provisioning needs Headwater output. -/
def execTestAccessPort (op : Jtag) (s : State) : Host.Outcome State Fault Refusal :=
  .next (finish s (
    let unlocked := decide (s.lifeCycle ≠ 2) && decide (s.lifeCycle ≠ 4)
    let free := s.geom.isEmpty && !s.power.inReset
    match op with
    | .bypass => s
    | .idcode => { s with readOut := 0xB4872A3D }
    | .provision cert =>
      if unlocked && free && lifeStep s.lifeCycle 1 false && decide (s.ent.state = .run) then s.provision cert else s
    | .toField kd => if unlocked && free && lifeStep s.lifeCycle 2 false then s.lifeMove 2 kd else s
    | .scrap => if unlocked && free && lifeStep s.lifeCycle 4 false then s.lifeMove 4 [] else s
    | .firmware image =>
      if s.lifeCycle = 1 ∨ s.lifeCycle = 3 then
        { s with trust := { s.trust with rotFirmware := image.take 196608 } }
      else s))

end Sys2Proof.Machine
end

