-- ==== Sys2Proof/Machine/Firmware.lean ====
section
/-! DEFINITION. Dreter: image checks, staging, activation, restart and recovery, bring-up, stewards, the Plate mirror and the
persistent registers (chapter 13). -/

namespace Sys2Proof.Machine

/-! ## The image (R375) -/

/-- Little-endian field of an image (R6). -/
def leField (bs : List Byte) (off n : Nat) : Nat := leNat ((bs.drop off).take n)

/-- An entry of SECTIONS (Table 13-4): KIND, OFFSET, LENGTH, and whether its reserved bytes are zero. -/
def imageSection (bs : List Byte) (i : Nat) : Nat × Nat × Nat × Bool :=
  let o := 64 + 16 * i
  (leField bs o 1, leField bs (o + 4) 4, leField bs (o + 8) 4, zeroBytes bs (o + 1) 3)

/-- Two sections share a byte. -/
def sectionsMeet : List (Nat × Nat × Nat × Bool) → Bool
  | [] => false
  | a :: t => t.any (fun b => rangesMeet a.2.1 a.2.2.1 b.2.1 b.2.2.1) || sectionsMeet t

/-- Check 1 of R375: magic, format, reserved fields, section limits and overlaps. -/
def imageForm (bs : List Byte) (build : Nat) : Bool :=
  let n := leField bs 7 1
  let ss := (List.range n).map (imageSection bs)
  let count := fun k => (ss.filter fun x => decide (x.1 = k)).length
  let size := fun k => (ss.filter fun x => decide (x.1 = k)).foldl (fun (m : Nat) x => m + x.2.2.1) 0
  decide (1632 ≤ bs.length) && decide (leField bs 0 4 = 0x5A4D4452) && decide (leField bs 4 2 = 1) && decide (1 ≤ n ∧ n ≤ 16) &&
    decide (leField bs 12 4 = bs.length) && decide (bs.length ≤ 13107200) && zeroBytes bs 22 2 && zeroBytes bs 36 28 &&
    zeroBytes bs (64 + 16 * n) (16 * (16 - n)) &&
    (ss.all fun x => x.2.2.2 && decide (x.1 ≤ 4) && decide (320 ≤ x.2.1) && decide (x.2.1 + x.2.2.1 + 1312 ≤ bs.length) &&
      (if x.1 = 0 then decide (x.2.2.1 ≤ 131072) else if 3 ≤ x.1 then decide (x.2.2.1 ≤ 262144) else true)) &&
    !(sectionsMeet ss) && decide (count 0 = 1) && decide (count 1 = 1) && decide (count 3 = 1) &&
    (decide (build = 0) || decide (1 ≤ count 4)) && decide (size 1 + size 2 ≤ 12582912)

/-- The image that a byte string spells. -/
def imageOf (bs : List Byte) : Image :=
  { svn := BitVec.ofNat 32 (leField bs 8 4), handVer := BitVec.ofNat 16 (leField bs 16 2), handMin := BitVec.ofNat 16 (leField bs 18 2),
    stewardIf := BitVec.ofNat 16 (leField bs 20 2), buildId := BitVec.ofNat 64 (leField bs 24 8),
    digest := (bs.drop (bs.length - 1312)).take 32, entry := BitVec.ofNat 32 (leField bs 32 4) }

/-- Checks 1 to 4 of R375; the first that fails decides. -/
def State.checkImage (s : State) (bs : List Byte) : Status :=
  if !(imageForm bs s.fuses.build) then .badFormat
  else if leField bs 6 1 ≠ 0xB1 then .refused
  else
    let d := (bs.drop (bs.length - 1312)).take 32
    if d ≠ digest256 (bs.take (bs.length - 1312)) ∨ !(Config.falconVerify Config.firmwareKey d (bs.drop (bs.length - 1280))) then .auth
    else if leField bs 8 4 < (s.preg 1).value.toNat then .refused
    else .ok

/-- IMAGE_CHECK trace point (Table 13-12). -/
def State.traceCheck (s : State) (st : Status) (g : Image) : State :=
  s.tracePoint 0x0C11 0 0 (leBytes 2 st.code ++ leBytes 6 0 ++ leBytes 8 g.buildId.toNat ++ leBytes 4 g.svn.toNat)

/-- A steward that still drives a job speaks another interface (R378). -/
def State.stewardClash (s : State) (g : Image) : Bool :=
  s.firm.stewards.any fun e => decide (e.2 ≠ g.stewardIf) && (s.partsOnDie e.1).any fun p => !(s.atBoundary p)

/-- LOAD_END of a Dreter image in BOOT or RECOVERY (R373, R375, R378): the status, and the bring-up begun when it is accepted. -/
def State.bootLoad (s : State) (bs : List Byte) : Status × State :=
  let st := s.checkImage bs
  let g := imageOf bs
  if st ≠ .ok then (st, s)
  else if s.stewardClash g then (.refused, s)
  else (.ok, ({ s with firm := { s.firm with image := some g, starting := true } }).traceCheck .ok g)

/-! ## Staging and activation (R380-R388) -/

/-- FW_STAGE (R380). -/
def State.fwStage (r : Req) (s : State) : State :=
  let n := field r.payload 0 4
  let none_ := List.replicate 44 0
  if r.payload.length ≠ 8 ∨ !(zeroBytes r.payload 4 4) then s.reply r .badFormat none_
  else if s.firm.phase ≠ .idle then s.reply r .busy none_
  else
    let bs := s.firm.stagedBytes.take n
    let g := imageOf bs
    let st := if bs.length < n then .badFormat else s.checkImage bs
    let st := if st = .ok then
        (match s.firm.image with
          | some run => if run.handVer.toNat < g.handMin.toNat ∨ g.handVer.toNat < run.handVer.toNat then Status.refused else .ok
          | none => .ok)
      else st
    let s := s.traceCheck st g
    if st = .ok then
      ({ s with firm := { s.firm with staged := some g } }).reply r .ok (beBytes 4 g.svn.toNat ++ beBytes 8 g.buildId.toNat ++
        fitBytes 32 g.digest)
    else ({ s with firm := { s.firm with staged := none, stagedBytes := [] } }).reply r st none_

def execFwStage (f : VFrame) (s : State) : Host.Outcome State Fault Refusal := .next (finish s (s.vorlaIn 0x13 f State.fwStage))

/-- An FW_ACTIVATE reply outside an activation (R381). -/
def State.actAnswer (s : State) (r : Req) (st : Status) (reason : Nat) : State :=
  let build := match s.firm.image with
    | some g => g.buildId.toNat
    | none => 0
  s.reply r st (beBytes 1 reason ++ [0, 0, 0] ++ beBytes 8 build)

/-- FW_ACTIVATE (R381, R382, R385). -/
def State.fwActivateReq (r : Req) (s : State) : State :=
  let flags := field r.payload 32 1
  let deadline := field r.payload 34 2
  let cancel := bit flags 0
  if r.payload.length ≠ 36 ∨ 2 ≤ flags ∨ !(zeroBytes r.payload 33 1) ∨ (cancel ↔ deadline ≠ 0) then s.actAnswer r .badFormat 4
  else if cancel then
    if s.firm.phase = .waiting then (s.actAbort 3).actAnswer r .ok 3 else s.actAnswer r .refused 4
  else
    let fits := match s.firm.staged with
      | some g => decide (g.digest = r.payload.take 32)
      | none => false
    if !fits then s.actAnswer r .refused 4
    else if s.firm.phase ≠ .idle ∨ s.power.emergency then s.actAnswer r .busy 4
    else
      ({ s with firm := { s.firm with phase := .waiting, actTag := r.tag, actSeq := r.seq } }).tracePoint 0x0C20 0 0 []

def execFwActivate (f : VFrame) (s : State) : Host.Outcome State Fault Refusal := .next (finish s (s.vorlaIn 0x14 f State.fwActivateReq))
def execActivateCancel (f : VFrame) (s : State) : Host.Outcome State Fault Refusal := .next (finish s (s.vorlaIn 0x14 f State.fwActivateReq))

/-- DEADLINE_MS passes before the commit point (R385). -/
def execActivationDeadline (s : State) : Host.Outcome State Fault Refusal := .next (finish s (s.actAbort 2))

/-- A page of some partition is locked (R238). -/
def State.anyLock (s : State) : Bool := s.parts.any fun e => e.2.ptes.any fun q => pteLock q.2

/-- A first-touch fault is pending (R242). -/
def State.anyFaultWait (s : State) : Bool := s.tiles.any fun e => e.2.ferry.slots.any fun q => decide (q.2.phase = .faultWait)

/-- No job of the partition is RUNNING (R383, Table 12-11). -/
def State.noRunning (s : State) (p : Nat) : Bool := !(s.journal.jobs.any fun j => decide (j.part = p ∧ j.state = 1))

/-- The commit condition of R384. -/
def State.mayCommit (s : State) : Bool :=
  (s.geom.all fun r => s.noRunning r.part) && !s.anyLock && !s.anyFaultWait && !s.power.emergency

/-- PART_MAP (Table 13-7). -/
def State.partMap (s : State) : Nat := s.geom.foldl (fun n r => n ||| 2 ^ (r.part - 1)) 0

/-- A partition's entry of the hand-over block: rectangle, flags, port share, key generation, pairing, queue head (Table 13-7). -/
def State.handPart (s : State) (p : Nat) : List Byte :=
  fitBytes 256 (match s.part p, s.rect p with
    | some x, some q =>
      leBytes 1 q.x0 ++ leBytes 1 q.y0 ++ leBytes 1 q.w ++ leBytes 1 q.h ++ leBytes 1 x.flags ++ leBytes 1 x.gen ++
        leBytes 1 x.share.length ++ [0] ++ fitBytes 32 (x.share.flatMap fun e => leBytes 1 e.1 ++ leBytes 1 e.2) ++
        (match x.pairing with
          | some k => leBytes 2 k.peerPanel ++ leBytes 1 k.peerPart ++ [1] ++ leBytes 4 k.pairId.toNat
          | none => List.replicate 8 0) ++
        (match (s.journal.queue p).head? with
          | some j => leBytes 4 j.id.toNat
          | none => leBytes 4 0xFFFFFFFF)
    | _, _ => [])

/-- The hand-over block (Table 13-7). -/
def State.handBlock (s : State) : List Byte :=
  let ver := match s.firm.image with
    | some g => g.handVer.toNat
    | none => 0
  let build := match s.firm.image with
    | some g => g.buildId.toNat
    | none => 0
  let parts := (List.range 64).flatMap fun i => s.handPart (i + 1)
  let sweeps := (List.range 64).flatMap fun i => match s.trust.rotations.find (i + 1) with
    | some t => leBytes 4 (t.todo.headD 0) ++ leBytes 4 1
    | none => List.replicate 8 0
  let repairs := leBytes 8 s.err.due.length ++ s.err.due.flatMap fun d => leBytes 2 d.det ++ leBytes 1 d.action ++ leBytes 1 d.part ++
    leBytes 1 d.loc.die ++ leBytes 1 d.loc.px ++ leBytes 1 d.loc.py ++ [0] ++ leBytes 8 d.place
  let events := s.host.boxes.flatMap fun b => (b.2.unacked.filter fun v => decide (v.wire.opcode = 0xF0)).flatMap fun v => v.wire.payload
  let len := 72 + parts.length + sweeps.length + repairs.length + events.length
  let head := leBytes 4 0x5A4D4842 ++ leBytes 2 ver ++ [0, 0] ++ leBytes 4 len ++ leBytes 4 s.bootEpoch ++ leBytes 8 build ++
    leBytes 4 s.firm.actTag.toNat ++ leBytes 4 s.firm.actSeq.toNat ++ leBytes 8 s.partMap ++ leBytes 8 s.firm.plateNext ++
    leBytes 4 72 ++ leBytes 4 (72 + parts.length) ++ leBytes 4 (72 + parts.length + sweeps.length) ++
    leBytes 4 (72 + parts.length + sweeps.length + repairs.length)
  let rest := parts ++ sweeps ++ repairs ++ events
  head ++ leBytes 8 (crc64 0 (head ++ List.replicate 8 0 ++ rest)) ++ rest

/-- The commit point (R384, R386): the hand-over block, FW_COMMIT, the SVN floor (R399), trace point 0x0C22. -/
def execCommitPoint (s : State) : Host.Outcome State Fault Refusal :=
  .next (finish s (
    match s.firm.staged with
    | none => s
    | some g =>
      if s.firm.phase = .waiting && s.mayCommit && !(s.preg 24).worn then
        let s := { s with firm := { s.firm with handover := s.handBlock, phase := .committed } }
        let s := s.pregWriteWatched 24 (BitVec.ofNat 64 (s.firm.actSeq.toNat * 2 ^ 32 + g.buildId.toNat % 2 ^ 32))
        let s := if (s.preg 1).value.toNat < g.svn.toNat then s.pregWriteWatched 1 (g.svn.setWidth 64) else s
        s.tracePoint 0x0C22 0 0 (leBytes 8 s.firm.actSeq.toNat)
      else s))

/-- Sheldo restarts the management complex (R376, R377): RECOVERY, an activation lost without a reply, open loads gone. -/
def State.mgtRestart (s : State) (det : Nat) : State :=
  let s := s.raise { det := det, loc := { die := 0x40 } }
  let s := s.tracePoint 0x0C40 0 0 (leBytes 8 det)
  let s := if s.firm.phase = .idle then s
           else s.updBox 0 fun b => { b with outstanding := b.outstanding.erase s.firm.actTag }
  { s with firm := { s.firm with mode := .recovery, starting := false, phase := .idle },
           host := { s.host with boxes := s.host.boxes.mapVals fun b =>
             { b with openLoad := none } } }

/-- Dies that carry a steward: every compute die, and the edge I/O dies of the build at 0x20 + k (R370). -/
def Fuses.stewardDies (f : Fuses) : List Nat := List.range 24 ++ (List.range f.edgeDies).map (· + 0x20)

def State.loadStewards (s : State) (g : Image) (dies : List Nat) : State :=
  { s with firm := { s.firm with stewards := dies.foldl (fun t d => t.set d g.stewardIf) s.firm.stewards } }

/-- The loader's work after the commit point (R386, R387): the new image runs and answers, or the complex restarts. -/
def execHandover (good : Bool) (s : State) : Host.Outcome State Fault Refusal :=
  .next (finish s (
    match s.firm.staged with
    | none => s
    | some g =>
      if s.firm.phase ≠ .committed then s
      else if good then
        let old := match s.firm.image with
          | some o => o.buildId.toNat
          | none => 0
        let s := { s with firm := { s.firm with image := some g, staged := none, stagedBytes := [], phase := .idle, handover := [],
                                                loaderBank := 1 - s.firm.loaderBank, stewardDown := [] } }
        let s := s.loadStewards g s.fuses.stewardDies
        (s.actReply .ok 0).tracePoint 0x0C23 0 0 (leBytes 8 old ++ leBytes 8 g.buildId.toNat)
      else s.mgtRestart 0x0C04))

/-! ## Bring-up (R373, R344, R378) -/

/-- A frame or stack or port that the repair list takes out of service at a start (R483). -/
def State.startLists (s : State) : State :=
  let lost := (List.range 48).filter fun n => s.fuses.hasStack n && s.repairs.contains (repairEntry 3 n)
  let stackTab := ((List.range 48).filter s.fuses.hasStack).map fun n => (n, ({ lost := lost.contains n } : Stack))
  { s with hbm := { s.hbm with stackTab := stackTab } }

/-- Scale-out ports as PORT_CFG holds them: TRIB_CFG and GATEWAY_MAC in two registers each (Table 13-13). -/
def State.startPorts (s : State) : State :=
  let ids := (List.range 0x40).filter s.fuses.hasPort
  let ports := ids.map fun id =>
    let cfg := s.preg (40 + 2 * portIx id)
    let down := s.repairs.contains (repairEntry 5 id)
    (id, ({ cfg := if cfg.wcount = 0 ∨ cfg.value = 0 then 0xC0E2000060320F00 else cfg.value,
            gateway := (s.preg (41 + 2 * portIx id)).value.setWidth 48, up := !down, disabled := down } : TPort))
  let base := s.preg 32
  { s with trib := { s.trib with ports := ports },
           panelNo := if base.value.getLsbD 63 then some (base.value.setWidth 16) else none }

/-- Dies at start: the Ephemeris plan applied and the nominal clock requested (R373, R465). -/
def State.startDies (s : State) : State :=
  (List.range 24).foldl (fun s n =>
    let v := (s.plan n).1
    (s.updDie n fun d => { d with fReq := 200, vOff := BitVec.ofNat 8 v }).setRail n) s

/-- EVENT JOBS_PENDING for every partition with a job that awaits a restore (R344). -/
def State.jobsPending (s : State) : State :=
  (List.range 64).foldl (fun s i =>
    let js := s.journal.jobs.filter fun j => decide (j.part = i + 1 ∧ j.state = 3)
    match js.head? with
    | some j => s.event 0 0x0006 (i + 1) (beBytes 4 js.length ++ beBytes 4 j.id.toNat)
    | none => s) s

/-- Journaled completions sent again (R341, R344). -/
def State.resendDone (s : State) : State :=
  s.journal.jobs.foldl (fun s j => if j.state = 2 then s.post j.part ⟨0x42, 0, 0, j.done, none⟩ else s) s

/-- Completions that the stewards held over RECOVERY, journaled and sent in JOB_ID order (R378). -/
def State.releaseHeld (s : State) : State :=
  s.journal.jobs.foldl (fun s j => if j.state = 1 ∧ !j.done.isEmpty then s.complete j.part j.id j.done else s) s

/-- The trace points of the steps of Table 13-3 that Dreter completes. -/
def State.traceStart (s : State) (steps : List Nat) : State :=
  steps.foldl (fun s n => s.tracePoint 0x0C10 0 0 (leBytes 8 n ++ leBytes 8 s.clock.ref)) s

/-- Stewards run from now on: a failed Headwater startup is followed by the pool's (R435, R437). -/
def State.stewardsUp (s : State) : State :=
  if s.ent.state = .failed ∧ s.ent.lastTest = 3 ∧ !s.ent.source then { s with ent := { s.ent with state := .switching } } else s

/-- Detectors 0x0E02 and 0x0E04 are raised from RESET_CAUSE after the restart (R455, R460). -/
def State.causeEvents (s : State) : State :=
  match s.power.resetCause.toNat with
  | 2 => s.raise { det := 0x0E02, loc := { die := 0x40 } }
  | 3 => s.raise { det := 0x0E04, loc := { die := 0x40 } }
  | _ => s

/-- Bring-up sets ROUTER_CTRL.VC3_SHARE of every router by Table 8-7 (R221). -/
def State.setShares (s : State) : State :=
  { s with mesh := { s.mesh with shared := true,
                                 routers := s.mesh.routers.map fun e =>
                                   (e.1, { e.2 with ctrl := (e.2.ctrl &&& 0x30) ||| BitVec.ofNat 32 (64 * shareCode s.fuses.build (e.1 / 48)) }) } }

/-- MODE RUN reported. -/
def State.toRun (s : State) : State := { s with firm := { s.firm with mode := .run, starting := false } }

/-- A cold start after a device reset (Table 13-3, steps 5 to 10). -/
def State.coldRun (s : State) (g : Image) : State :=
  (((s.loadStewards g s.fuses.stewardDies).startLists.startPorts.startDies.setShares.toRun.traceStart [5, 6, 7, 8, 9, 10]).stewardsUp).causeEvents.jobsPending.resendDone

/-- A warm start out of RECOVERY (R378): the stewards of a die without a running job are reloaded. -/
def State.warmRun (s : State) (g : Image) : State :=
  let free := s.fuses.stewardDies.filter fun d => (s.partsOnDie d).all s.atBoundary
  let s := { s with firm := { s.firm with mode := .run, starting := false, stewardDown := s.firm.stewardDown.filter fun d => !(free.contains d) } }
  ((s.loadStewards g free).traceStart [5, 9, 10]).releaseHeld

/-- MODE RUN is reached (R373 step 10, R378). -/
def execModeRunReached (s : State) : Host.Outcome State Fault Refusal :=
  .next (finish s (
    match s.firm.image with
    | none => s
    | some g =>
      if !s.firm.starting then s
      else if s.firm.mode = .recovery then (if s.firm.stewards.isEmpty then s.coldRun g else s.warmRun g)
      else s.coldRun g))

/-! ## Failures (R376, R379) -/

/-- The management complex fails (R376): by its watchdog, or by an uncorrectable error in its SRAM. -/
def execDrtWatchdog (cause : BitVec 16) (s : State) : Host.Outcome State Fault Refusal :=
  .next (finish s (
    if s.firm.mode = .run ∨ s.firm.starting then s.mgtRestart (if cause = 0x0C03 then 0x0C03 else 0x0C01) else s))

/-- A steward misses its watchdog, or its load fails (R379). -/
def execStewardFault (die : Nat) (s : State) : Host.Outcome State Fault Refusal :=
  .next (finish s (
    if s.firm.stewards.has die then
      let s := { s with firm := { s.firm with stewards := s.firm.stewards.erase die, stewardDown := die :: s.firm.stewardDown } }
      s.raise { det := 0x0C05, loc := { die := die } }
    else s))

/-- A second reload of a steward fails within a BOOT_EPOCH (R379): every quad of the die becomes unavailable, and what runs there
ends under detector 0x0C05 of class EC_PARTITION_FATAL (Table 13-14). -/
def State.stewardLost (s : State) (die : Nat) : State :=
  let ps := s.partsOnDie die
  let s := if ps.isEmpty then s.raise { det := 0x0C05, loc := { die := die } }
    else ps.foldl (fun s p => s.raise { det := 0x0C05, loc := { die := die }, part := p, cls := some 3 }) s
  s.applyRepair ⟨0x0C05, { die := die }, 13, 0, 0, false⟩

/-- A faulted steward is reloaded once no partition on its die has a running job (R379). -/
def execStewardReload (die : Nat) (good : Bool) (s : State) : Host.Outcome State Fault Refusal :=
  .next (finish s (
    match s.firm.image with
    | none => s
    | some g =>
      if s.firm.stewardDown.contains die && (s.partsOnDie die).all s.atBoundary then
        if good then
          let s := s.loadStewards g [die]
          { s with firm := { s.firm with stewardDown := s.firm.stewardDown.filter fun d => decide (d ≠ die) } }
        else
          let n := s.err.stewardFails.getD die 0 + 1
          let s := { s with err := { s.err with stewardFails := s.err.stewardFails.set die n } }
          if n = 2 && decide (die < 24) then s.stewardLost die else s.raise { det := 0x0C05, loc := { die := die } }
      else s))

/-- A filled quarter of the Plate ring is copied to the mirror (R391). -/
def execPlateMirror (s : State) : Host.Outcome State Fault Refusal :=
  .next (finish s (
    if 65536 * (s.firm.mirrored + 1) ≤ s.firm.plateNext then { s with firm := { s.firm with mirrored := s.firm.mirrored + 1 } }
    else s))

/-! ## Persistent registers over the mailbox (R395, R396) -/

/-- Owner of a register (Table 13-13): 0 Sheldo, 1 Dreter, 2 host, 3 reserved. -/
def pregOwner (n : Nat) : Nat :=
  if n < 25 then 0 else if n = 25 then 2
  else if 32 ≤ n ∧ n < 35 then 1 else if 40 ≤ n ∧ n < 384 then 1
  else if 384 ≤ n ∧ n < 448 then 2 else 3

/-- PERSIST_READ (R395, R488). -/
def State.persistReadReq (r : Req) (s : State) : State :=
  let first := field r.payload 0 2
  let n := field r.payload 2 2
  if r.payload.length ≠ 4 ∨ n = 0 ∨ 512 < first + n then s.reply r .badFormat []
  else
    let s := s.almRead first n
    s.replyStream r .ok false 0 ((List.range n).flatMap fun i =>
      let x := s.preg (first + i)
      beBytes 2 (first + i) ++ beBytes 1 (pregOwner (first + i)) ++ beBytes 1 (bnat x.worn) ++ beBytes 4 x.wcount.toNat ++
        beBytes 8 x.value.toNat)

/-- PERSIST_WRITE (R396). -/
def State.persistWriteReq (r : Req) (s : State) : State :=
  let n := field r.payload 0 2
  if r.payload.length ≠ 16 ∨ !(zeroBytes r.payload 2 2) then s.reply r .badFormat []
  else if pregOwner n ≠ 2 then s.reply r .refused []
  else if (s.preg n).worn then s.reply r .worn []
  else if (s.preg n).wcount.toNat ≠ field r.payload 4 4 then s.reply r .busy []
  else
    let s := s.pregWriteWatched n (BitVec.ofNat 64 (field r.payload 8 8))
    s.reply r .ok (beBytes 4 (s.preg n).wcount.toNat)

def execPersistRead (f : VFrame) (s : State) : Host.Outcome State Fault Refusal := .next (finish s (s.vorlaIn 0x80 f State.persistReadReq))
def execPersistWrite (f : VFrame) (s : State) : Host.Outcome State Fault Refusal := .next (finish s (s.vorlaIn 0x81 f State.persistWriteReq))

end Sys2Proof.Machine
end

