-- ==== Sys2Proof/Machine/Program.lean ====
section
/-! DEFINITION. Program images: the header, the sections, and every load-time rule for an instruction (R351-R358, R510). -/

namespace Sys2Proof.Machine

/-! ## Instructions -/

/-- An instruction of a stream: its word offset, OPC, STEP_IDX and operand words. -/
structure Ins where
  at_ : Nat
  opc : Nat
  stepIdx : Bool
  ws : List Word
  deriving DecidableEq, Repr

/-- Operand words of an OPC (Table 12-20). -/
def opcWords (opc : Nat) : Option Nat :=
  match opc with
  | 0x00 | 0x0B | 0x0C | 0x0E => some 0
  | 0x02 | 0x04 | 0x08 | 0x09 | 0x0D | 0x0F => some 1
  | 0x01 => some 2
  | 0x03 | 0x05 => some 3
  | 0x06 | 0x07 | 0x0A => some 4
  | _ => none

/-- The instructions of a stream, or none when a header is reserved, has a wrong NWORDS, or sets STEP_IDX where R359 does not allow
it (R354). -/
def parseStream : Nat → Nat → List Word → Option (List Ins)
  | _, _, [] => some []
  | 0, _, _ => none
  | n + 1, o, w :: ws =>
    let x := w.toNat
    let opc := bits x 63 56
    match opcWords opc with
    | none => none
    | some k =>
      if bits x 55 52 ≠ k ∨ bits x 50 0 ≠ 0 ∨ ws.length < k ∨ (bit x 51 ∧ opc ∉ [0x03, 0x06, 0x0A, 0x08]) then none
      else (parseStream n (o + 1 + k) (ws.drop k)).map fun t => (⟨o, opc, bit x 51, ws.take k⟩ : Ins) :: t

def Ins.w (i : Ins) (k : Nat) : Word := i.ws.getD k 0

/-- End of the partition's tile SRAM allocation in bytes (R195). -/
def allocEnd : Nat := 0xFC00 * 64

def Layout.inAlloc (l : Layout) : Bool := decide (l.endAddr ≤ allocEnd)

/-- A block scale only on a format R43 allows. -/
def mxFits (mx : Bool) (f : Fmt) : Bool := !mx || f.mxOk

/-- Operand formats the array multiplies (R58). -/
def arrayPair (a b : Fmt) : Bool :=
  let ok := fun f => !([Fmt.fp64, .int16, .int32, .fp32c].contains f)
  let spin := fun f => [Fmt.int8, .e4m3, .e5m2].contains f
  if a = .spin1 then spin b else if b = .spin1 then spin a else ok a && ok b

def mmaOk (i : Ins) : Bool :=
  let m := Mma.ofWords (i.w 0) (i.w 1)
  arrayPair m.aFmt m.bFmt && decide (m.k ≠ 0) && mxFits m.aMx m.aFmt && mxFits m.bMx m.bFmt && m.aLayout.inAlloc && m.bLayout.inAlloc &&
    decide (bits (i.w 0).toNat 53 48 = 0) && decide (bits (i.w 1).toNat 15 0 = 0)

/-- ACC_LD under every mode that can be in effect (R81, R82, R510). -/
def accLdOk (modes : List Nat) (i : Ins) : Bool :=
  let x := (i.w 0).toNat
  let l := fun m => accLdLayout (BitVec.ofNat 32 (m * 64)) (i.w 0)
  decide (bits x 58 48 = 0) && decide (bits x 23 0 = 0) && mxFits (bit x 59) (Fmt.ofCode (bits x 63 60)) &&
    modes.all fun m => (l m).inAlloc && (decide (m = 0) || (decide (bits x 63 60 = 15) && !(bit x 59)))

/-- DRAIN under every mode that can be in effect (R77, R85, R510). With FUSE_OP NONE, E is not read and its line range is not checked
(DESIGN CHOICE, log 127). -/
def drainOk (modes : List Nat) (i : Ins) : Bool :=
  let d := DrainWords.ofWords (i.w 0) (i.w 1) (i.w 2)
  decide (d.fuse ≠ 3) && decide (bits (i.w 0).toNat 59 58 ≠ 3) && mxFits d.cvt.mx d.cvt.fmt && mxFits d.eMx d.eFmt && d.dst.inAlloc &&
    (decide (d.fuse = 0) || d.e.inAlloc) &&
    modes.all fun m => decide (m = 0) || (decide (d.fuse = 0) && decide (d.indexAddr + 16384 ≤ allocEnd))

/-- A write of ACC_CTRL (R71, R135). -/
def accCtrlOk (i : Ins) : Bool :=
  let x := (i.w 0).toNat
  let c := (i.w 0).setWidth 32
  decide (bits x 63 32 = 0) && decide (bits x 15 8 = 0) && decide (bits x 3 0 = 0) && decide (accMode c ≠ 3) && !(suMode c) &&
    decide (spillLine c % 512 = 0) && decide (spillLine c + 512 ≤ 0xFC00)

/-- The neighbour a direction names lies in a w by h rectangle (Table 4-7). -/
def dirInside (w h ix dir : Nat) : Bool :=
  match dir with
  | 1 => decide (ix / w + 1 < h)
  | 2 => decide (ix % w + 1 < w)
  | 3 => decide (1 ≤ ix / w)
  | 4 => decide (1 ≤ ix % w)
  | _ => true

/-- Lines of a byte range from a line. -/
def lineRange (line n : Nat) : Nat × Nat := (line, (n + 63) / 64)

/-- CHAIN (R99). -/
def chainOk (w h ix : Nat) (i : Ins) : Bool :=
  let c := ChainWords.ofWords (i.w 0) (i.w 1) (i.w 2)
  let src := lineRange c.srcLine (c.span * c.packed)
  let dst := lineRange c.dstLine c.packed
  decide (c.op ≤ 3) && decide (c.inDir ≤ 5) && decide (c.outDir ≤ 5) && decide (bits (i.w 0).toNat 18 16 = 0) &&
    decide (bits (i.w 2).toNat 47 32 = 0) && (decide (c.inDir = 0) == c.isHead) && (decide (c.outDir = 0) == c.isTail) &&
    dirInside w h ix c.inDir && dirInside w h ix c.outDir && decide (c.srcLine * 64 + c.span * c.packed ≤ allocEnd) &&
    decide (c.dstLine * 64 + c.packed ≤ allocEnd) && !(rangesMeet src.1 src.2 dst.1 dst.2) && decide (1 ≤ c.count ∧ c.count ≤ 4096) &&
    (if c.op = 3 then decide (1 ≤ c.topk ∧ c.topk ≤ 256) else decide (c.topk = 0)) && decide (c.count * c.topk ≤ 16384) &&
    decide (c.span ≠ 0) && (decide (c.mode = 1) || decide (c.span = 1))

/-- VRAND (R122, Table 5-7). -/
def vrandOk (i : Ins) : Bool :=
  let x := (i.w 0).toNat
  let v := VrandWords.ofWords (i.w 0) (i.w 1) (i.w 2) (i.w 3)
  let dist := bits x 63 60
  let rm := bits x 55 54
  decide (dist ≤ 9) && decide (bits x 51 48 = 0) && decide (bits x 15 0 = 0) && decide (bits (i.w 1).toNat 31 0 = 0) && decide (v.count ≠ 0) &&
    (if dist = 0 then
      decide (bits x 59 52 = 0) && decide (v.param < 128) && (lbOf v.param).isSome &&
        decide (v.dstLine * 64 + (v.count * v.param + 7) / 8 ≤ allocEnd)
    else
      decide (rm ≤ 1) && mxFits v.cvt.mx v.cvt.fmt && v.dst.inAlloc &&
      (if dist = 4 then decide (1 ≤ v.param ∧ v.param ≤ 2 ^ 31)
       else if dist = 5 then decide (v.param ≤ 65536)
       else if dist = 7 then decide (v.param < 2 ^ 62)
       else decide (v.param = 0)))

/-- Finite and greater than 0. -/
def positiveF32 (x : BitVec 32) : Bool := (f32 x).isFinite && !(f32 x).isZero && !(f32 x).isNeg

/-- DRAW (R173, R175). A native LOCAL uses no sequence record, so its SEQ_LINE names no range (DEDUCED, log 55). -/
def drawOk (i : Ins) : Bool :=
  let d := DrawWords.ofWords (i.w 0) (i.w 1) (i.w 2) (i.w 3)
  let fin := decide (d.phase = 2)
  let code := bits (i.w 0).toNat 59 56
  let row := (rowBytes d.sFmt d.segLen + 63) / 64
  decide (bits (i.w 0).toNat 63 62 ≤ 1) && decide (d.phase ≤ 2) && decide (bits (i.w 1).toNat 14 0 = 0) && decide (1 ≤ code ∧ code ≤ 3) &&
    (!fin || decide (code = 1)) && (if d.compat then decide (d.topK = 0) else decide (1 ≤ d.topK ∧ d.topK ≤ 256)) &&
    decide (d.nrows ≠ 0) && decide (d.nrows * max d.topK 1 ≤ 16384) &&
    (if fin then decide (d.segLen = 0) else decide (1 ≤ d.segLen ∧ d.segLen ≤ 65536)) && decide (d.vocabBase + d.segLen ≤ 0xFFFFFFFF) &&
    positiveF32 d.invTemp && positiveF32 d.topP && decide (d.topP.toNat ≤ 0x3F800000) && (!d.compat || decide (d.topP = 0x3F800000)) &&
    (decide (d.rowPitch = 0) || (!fin && decide (row ≤ d.rowPitch))) && decide (d.srcEnd ≤ allocEnd) && decide (d.outEnd ≤ allocEnd) &&
    (!d.usesRecords || decide (d.seqLine * 64 + 16 * d.nrows ≤ allocEnd))

/-- VOP (R357). -/
def vopOk (i : Ins) : Bool :=
  let v := VopWords.ofWords (i.w 0) (i.w 1) (i.w 2) (i.w 3)
  let x := (i.w 0).toNat
  let op := bits x 63 60
  let usesB := decide (op ≤ 5 ∨ op = 7 ∨ op = 8)
  let usesC := decide (op = 3)
  decide (op ≤ 11) && decide (bits x 41 32 = 0) && decide (bits x 15 0 = 0) && decide (bits (i.w 2).toNat 31 0 = 0) && decide (v.count ≠ 0) &&
    decide (bits x 47 46 ≠ 3) && mxFits v.aMx v.aFmt && mxFits v.bMx v.bFmt && mxFits v.cvt.mx v.cvt.fmt && v.a.inAlloc && v.dst.inAlloc &&
    (if usesB then v.b.inAlloc else decide (v.bLine = 0)) && (if usesC then v.c.inAlloc else decide (v.cLine = 0)) &&
    (decide (op ≠ 7) || (decide (v.aFmt = .fp32c ∧ v.bFmt = .fp32c ∧ v.cvt.fmt = .fp32c) && decide (bits x 47 46 = 0)))

/-- Every other instruction with an operand word (R150, R244, R356). The control block of SU_RUN fills nine lines (R151, R152). -/
def singleOk (i : Ins) : Bool :=
  let x := (i.w 0).toNat
  match i.opc with
  | 0x08 => decide (bits x 47 6 = 0) && decide (bits x 63 48 < 0xFC00)
  | 0x09 => decide (bits x 47 0 = 0) && decide (bits x 63 48 + 9 ≤ 0xFC00)
  | 0x0F => decide (bits x 15 6 = 0)
  | _ => true

/-- The last ACC_MODE written in the body that follows a LOOP, looking up to its ENDLOOP. -/
def bodyMode : Nat → Option Nat → List Ins → Option Nat
  | _, m, [] => m
  | d, m, i :: t =>
    if i.opc = 0x0D then bodyMode (d + 1) m t
    else if i.opc = 0x0E then (if d = 0 then m else bodyMode (d - 1) m t)
    else if i.opc = 0x04 then bodyMode d (some (accMode ((i.w 0).setWidth 32))) t
    else bodyMode d m t

/-- Every instruction under the modes that can be in effect at it, loops to depth 4, one END at the end (R358, R510). -/
def walkStream (w h ix : Nat) : List Nat → Nat → List Ins → Bool
  | _, _, [] => false
  | modes, depth, i :: t =>
    match i.opc with
    | 0x00 => decide (depth = 0) && t.isEmpty
    | 0x01 => mmaOk i && walkStream w h ix modes depth t
    | 0x02 => accLdOk modes i && walkStream w h ix modes depth t
    | 0x03 => drainOk modes i && walkStream w h ix modes depth t
    | 0x04 => accCtrlOk i && walkStream w h ix [accMode ((i.w 0).setWidth 32)] depth t
    | 0x05 => chainOk w h ix i && walkStream w h ix modes depth t
    | 0x06 => vrandOk i && walkStream w h ix modes depth t
    | 0x07 => drawOk i && walkStream w h ix modes depth t
    | 0x0A => vopOk i && walkStream w h ix modes depth t
    | 0x0D =>
      let n := bits (i.w 0).toNat 31 0
      let more := match bodyMode 0 none t with
        | some m => if n = 1 then [] else [m]
        | none => []
      decide (bits (i.w 0).toNat 63 32 = 0) && decide (n ≠ 0) && decide (depth < 4) && walkStream w h ix (modes ++ more) (depth + 1) t
    | 0x0E => decide (depth ≠ 0) && walkStream w h ix modes (depth - 1) t
    | _ => singleOk i && walkStream w h ix modes depth t

/-! ## Sections (Tables 12-16 to 12-18) -/

/-- A section entry. -/
structure Section where
  kind : Nat
  arg : Nat
  off : Nat
  len : Nat
  clean : Bool
  deriving DecidableEq, Repr

def sectionAt (bs : List Byte) (i : Nat) : Section :=
  let o := 128 + 32 * i
  { kind := leField bs o 1, arg := leField bs (o + 4) 4, off := leField bs (o + 8) 8, len := leField bs (o + 16) 8,
    clean := zeroBytes bs (o + 1) 3 && zeroBytes bs (o + 24) 8 }

def Section.bytes (c : Section) (bs : List Byte) : List Byte := (bs.drop c.off).take c.len

/-- 64-bit words of a byte string. -/
def bytesWords : Nat → List Byte → List Word
  | 0, _ => []
  | n + 1, bs => BitVec.ofNat 64 (leNat (bs.take 8)) :: bytesWords n (bs.drop 8)

/-- Words of a STREAM section after its 16 bytes. -/
def streamWords (bs : List Byte) : List Word := bytesWords (bs.length / 8 - 2) (bs.drop 16)

/-- A handler offset is absent or names the header word of an instruction. -/
def entryOk (ins : List Ins) (e : Nat) (needed : Bool) : Bool :=
  if e = 0xFFFFFFFF then !needed else ins.any fun i => decide (i.at_ = e)

/-- A STREAM section (R351 step 1, R354). -/
def streamOk (w h : Nat) (shapePort : Bool) (c : Section) (bs : List Byte) : Bool :=
  let b := c.bytes bs
  decide (16 ≤ c.len) && decide (c.len % 8 = 0) && zeroBytes b 8 8 &&
    match parseStream (c.len / 8) 0 (streamWords b) with
    | none => false
    | some ins => walkStream w h c.arg [0] 0 ins && entryOk ins (leField b 0 4) shapePort && entryOk ins (leField b 4 4) shapePort

/-- Runs of a TILE_DATA section: line and bytes; none when one leaves the allocation or the section. -/
def tileRuns : Nat → List Byte → Option (List (Nat × List Byte))
  | _, [] => some []
  | 0, _ => none
  | n + 1, bs =>
    let line := leField bs 0 2
    let k := leField bs 2 2
    if bs.length < 8 + 64 * k ∨ !(zeroBytes bs 4 4) ∨ 0xFC00 < line + k then none
    else (tileRuns n (bs.drop (8 + 64 * k))).map fun t => (line * 64, (bs.drop 8).take (64 * k)) :: t

/-- 16-bit numbers of a byte string. -/
def halfWords (bs : List Byte) : List Nat := (List.range (bs.length / 2)).map fun i => leField bs (2 * i) 2

/-- A length padded to 8 bytes. -/
def pad8 (n : Nat) : Nat := (n + 7) / 8 * 8

/-- REGIONS entries (R352). -/
def regionList : Nat → List Byte → Option (List Region)
  | _, [] => some []
  | 0, _ => none
  | n + 1, bs =>
    let kind := leField bs 0 1
    let snd := leField bs 3 1
    let tail := if kind = 2 then pad8 (2 * snd) else 0
    let r : Region := { kind := kind, channel := leField bs 2 1, va := leField bs 8 8, bytes := leField bs 16 8,
                        maxMsg := leField bs 24 4, senders := if kind = 2 then halfWords ((bs.drop 32).take (2 * snd)) else [] }
    if bs.length < 32 + tail ∨ 2 < kind ∨ !(zeroBytes bs 1 1) ∨ !(zeroBytes bs 4 4) ∨ !(zeroBytes bs 28 4) ∨
        !(zeroBytes bs (32 + 2 * snd) (tail - 2 * snd)) ∨ (kind ≠ 2 ∧ (r.channel ≠ 0 ∨ snd ≠ 0 ∨ r.maxMsg ≠ 0)) then none
    else (regionList n (bs.drop (32 + tail))).map fun t => r :: t

/-- GROUPS entries (Table 12-18, R304). -/
def groupList : Nat → List Byte → Option (List (List Nat))
  | _, [] => some []
  | 0, _ => none
  | n + 1, bs =>
    let k := leField bs 0 1
    let len := pad8 (2 + 2 * k)
    if bs.length < len ∨ k = 0 ∨ 64 < k ∨ !(zeroBytes bs 1 1) ∨ !(zeroBytes bs (2 + 2 * k) (len - 2 - 2 * k)) then none
    else (groupList n (bs.drop len)).map fun t => halfWords ((bs.drop 2).take (2 * k)) :: t

/-- Regions overlap. -/
def regionsMeet : List Region → Bool
  | [] => false
  | a :: t => t.any (fun b => rangesMeet a.va a.bytes b.va b.bytes) || regionsMeet t

/-- Total bytes of the regions of a kind. -/
def regionBytes (rs : List Region) (kind : Nat) : Nat := (rs.filter fun r => decide (r.kind = kind)).foldl (fun n r => n + r.bytes) 0

/-- Bytes of one full incoming result for every chain with IN_DIR PANEL (R105). -/
def chainNeed (streams : List (List Ins)) : Nat :=
  (streams.flatMap fun s => s.filter fun i => decide (i.opc = 0x05)).foldl (fun n i =>
    let c := ChainWords.ofWords (i.w 0) (i.w 1) (i.w 2)
    if c.inDir = 5 then n + 8 * c.entries else n) 0

/-- Bytes that two steps of imports from remote peers take at least, PRIME and the first colour step: those of a sparse control block all
of whose peers are remote, whose halo slots are all imported (R164, R165; DEDUCED, log 97). -/
def suNeed (panel : Nat) (m : Mem) (line : Nat) : Nat :=
  let c := SeqCtl.ofWords ((List.range 8).map fun i => BitVec.ofNat 64 (m.nat (line * 64 + 8 * i) 8))
  let ds := readDirs m line
  if c.dense || decide (c.peers = 0) || (List.range c.peers).any fun i => decide (m.nat (c.peerLine * 64 + 4 * i + 2) 2 = panel) then 0
  else 8 * ((ds.map DirEntry.haloCount).sum + (ds.map DirEntry.haloCount).headD 0)

/-- The same over the SU_RUNs of every tile, whose control blocks come with the image. -/
def haloNeed (panel : Nat) (streams : List (Nat × List Ins)) (data : List (Nat × List (Nat × List Byte))) : Nat :=
  (streams.map fun s =>
    let m := data.foldl (fun m d => if d.1 = s.1 then Mem.writeAll m d.2 else m) []
    (s.2.filter fun i => decide (i.opc = 0x09)).foldl (fun n i => max n (suNeed panel m (bits (i.w 0).toNat 63 48))) 0).sum

/-- A program image as its bytes spell it, with what step 1 of R351 reads. -/
structure ProgImage where
  prog : Program
  data : List (Nat × List (Nat × List Byte))
  build : Nat
  deriving DecidableEq, Repr

/-- Sections of an image. -/
def imageSections (bs : List Byte) : List Section := (List.range (leField bs 14 2)).map (sectionAt bs)

/-- Two sections share a byte. -/
def sectionsOverlap : List Section → Bool
  | [] => false
  | a :: t => t.any (fun b => decide (0 < a.len) && decide (0 < b.len) && rangesMeet a.off a.len b.off b.len) || sectionsOverlap t

/-- The header and section table obey step 1 of R351; WIN is a power of two (R290). -/
def progForm (bs : List Byte) (len : Nat) : Bool :=
  let flags := leField bs 7 1
  let multi := bit flags 2
  let n := leField bs 14 2
  let cs := imageSections bs
  let w := leField bs 10 2
  let h := leField bs 8 2
  decide (128 ≤ bs.length) && decide (leField bs 0 4 = 0x5A4D5047) && decide (leField bs 4 2 = 1) && decide (leField bs 6 1 ≤ 2) &&
    decide (flags < 8) && decide (1 ≤ n ∧ n ≤ 16384) && decide (leField bs 16 8 = len) && decide (bs.length = len) && decide (len ≤ 2 ^ 36) &&
    (multi || decide (leField bs 12 2 = 0)) && (if multi then decide (16 ≤ leField bs 24 2 ∧ leField bs 24 2 ≤ 4096 ∧ 2 ^ (leField bs 24 2).log2 = leField bs 24 2)
      else decide (leField bs 24 2 = 0)) && zeroBytes bs 26 6 && zeroBytes bs 64 64 && decide (128 + 32 * n ≤ len) &&
    (cs.all fun c => c.clean && decide (c.kind ≤ 4) && decide (c.off % 64 = 0) && decide (128 + 32 * n ≤ c.off) && decide (c.off + c.len ≤ len) &&
      (if c.kind ≤ 1 then decide (c.arg < w * h) else decide (c.arg = 0)) && (multi || decide (c.kind ≠ 2))) &&
    !(sectionsOverlap cs) &&
    (List.range (w * h)).all fun ix => decide (((cs.filter fun c => decide (c.kind = 0 ∧ c.arg = ix)).length) = 1)

/-- Every section of a kind parsed and joined. -/
def gather {α : Type} (bs : List Byte) (kind : Nat) (f : List Byte → Option (List α)) : Option (List α) :=
  ((imageSections bs).filter fun c => decide (c.kind = kind)).foldl (fun acc c =>
    match acc, f (c.bytes bs) with
    | some a, some b => some (a ++ b)
    | _, _ => none) (some [])

/-- Step 1 of R351 and the sizing rules of R105, R165 and R302; the image it lets through. -/
def Part.readProgram (x : Part) (panel : Nat) (bs : List Byte) (len : Nat) : Option ProgImage :=
  if !(progForm bs len) then none
  else
    let flags := leField bs 7 1
    let census := leField bs 8 4
    let w := census / 65536
    let h := census % 65536
    let cs := imageSections bs
    let streams := cs.filter fun c => decide (c.kind = 0)
    let datas := cs.filter fun c => decide (c.kind = 1)
    let regions := gather bs 3 fun b => regionList b.length b
    let groups := gather bs 4 fun b => groupList b.length b
    let runs := datas.map fun c => (c.arg, tileRuns c.len (c.bytes bs))
    if !(streams.all fun c => streamOk w h (bit flags 0) c bs) || runs.any (fun r => r.2.isNone) then none
    else
      match regions, groups with
      | some rs, some gs =>
        let ins := streams.map fun c => (c.arg, (parseStream (c.len / 8) 0 (streamWords (c.bytes bs))).getD [])
        let win := leField bs 24 2
        let rings := rs.all fun r => decide (r.kind ≠ 2) || decide (win * r.maxMsg * r.senders.length ≤ r.bytes)
        if decide (256 < gs.length) || regionsMeet rs || !(rs.all fun r => x.rangeMapped r.va r.bytes) || !rings ||
            decide (regionBytes rs 0 < chainNeed (ins.map (·.2))) ||
            decide (regionBytes rs 1 < haloNeed panel ins (runs.map fun r => (r.1, r.2.getD []))) then none
        else
          some { prog := { digest := digest256 bs, family := (bs.drop 32).take 32, flags := flags, census := census,
                           panels := leField bs 12 2, win := win, bytes := len,
                           peers := ((cs.filter fun c => decide (c.kind = 2)).flatMap fun c => halfWords (c.bytes bs)),
                           regions := rs, groups := gs,
                           streams := streams.foldl (fun t c => t.set c.arg (streamWords (c.bytes bs))) [], frames := [] },
                 data := runs.map fun r => (r.1, r.2.getD []), build := leField bs 6 1 }
      | _, _ => none

/-- TILE_DATA written into the partition's tiles (R353). -/
def State.putTileData (s : State) (p : Nat) (data : List (Nat × List (Nat × List Byte))) : State :=
  data.foldl (fun s d =>
    match (s.tilesOf p)[d.1]? with
    | some t => s.updTile t fun x => x.store d.2
    | none => s) s

/-- LOAD_END of a program image (R351): the first check that fails decides, and a refused image leaves the old one. -/
def State.loadProgram (s : State) (p : Nat) (bs : List Byte) (len : Nat) : Status × State :=
  match s.part p with
  | none => (.notReady, s)
  | some x =>
    match x.readProgram s.panel bs len with
    | none => (.badFormat, s)
    | some g =>
      let sealedOther := match x.sealed_ with
        | some w => decide (w.2 ≠ g.prog.family)
        | none => false
      if g.build ≠ s.fuses.build then (.badFormat, s)
      else if g.prog.census ≠ s.census p then (.refused, s)
      else if sealedOther then (.refused, s)
      else
        let old := match x.program with
          | some o => o.frames
          | none => []
        match State.takeFrames false p ((len + 2 ^ 21 - 1) / 2 ^ 21) 0 (s.freeFrames false old) with
        | none => (.limit, s)
        | some f =>
          if x.run.isSome ∨ x.again.isSome then (.busy, s)
          else
            let t := f.2.updPart p fun x => { x with program := some { g.prog with frames := f.1 } }
            (.ok, t.putTileData p g.data)

end Sys2Proof.Machine
end

