-- ==== Sys2Proof/Machine/Load.lean ====
section
/-! DEFINITION. LOAD_BEGIN, LOAD_CHUNK, LOAD_END and LOG_READ (R361, R362, R380, R391, R410, R419). -/

namespace Sys2Proof.Machine

/-- LOAD_BEGIN (R361): TARGET, LENGTH and, for PAGES, VA follow one another (DEDUCED, log 31). -/
def State.loadBeginReq (r : Req) (s : State) : State :=
  let target := field r.payload 0 1
  let len := field r.payload 1 8
  let b := s.box r.box
  if 2 < target ∨ r.payload.length ≠ (if target = 2 then 17 else 9) then s.reply r .badFormat []
  else if s.trust.bootLocked then s.reply r .refused []
  else if b.openLoad.isSome then s.reply r .busy []
  else if target = 0 ∧ (s.firm.phase ≠ .idle ∨ s.firm.starting) then s.reply r .busy []
  else if target ≠ 0 ∧ (s.part r.box).isNone then s.reply r .notReady []
  else
    (s.updBox r.box fun b => { b with openLoad := some { target := target, length := len, va := field r.payload 9 8 } }).reply r .ok []

def execLoadBegin (f : VFrame) (s : State) : Host.Outcome State Fault Refusal := .next (finish s (s.vorlaIn 0x10 f State.loadBeginReq))

/-- Data of a request that R410 seals under K_DATA; none when its tag fails. -/
def State.openData (s : State) (r : Req) (bs : List Byte) : Option (List Byte) :=
  match (s.box r.box).kData with
  | some k => gcmOpen k (vNonce r.box 0 r.seq) r.header bs
  | none => none

/-- A tag that fails: ST_AUTH and detector 0x0D03 (R410). -/
def State.dataFail (s : State) (r : Req) : State :=
  (s.raise { det := 0x0D03, loc := { die := 0x40 }, part := r.box }).reply r .auth []

/-- LOAD_CHUNK (R361): one chunk at OFFSET of the open load. -/
def State.loadChunkReq (r : Req) (s : State) : State :=
  match (s.box r.box).openLoad with
  | none => s.reply r .refused []
  | some l =>
    let off := field r.payload 0 8
    if s.trust.bootLocked then s.reply r .refused []
    else if r.payload.length < 8 then s.reply r .badFormat []
    else
      match (if l.target = 0 then some (r.payload.drop 8) else s.openData r (r.payload.drop 8)) with
      | none => s.dataFail r
      | some data =>
        if l.length < off + data.length then s.reply r .badFormat []
        else
          let l' : OpenLoad := { l with chunks := l.chunks.set off data }
          (s.updBox r.box fun b => { b with openLoad := some l' }).reply r .ok []

def execLoadChunk (f : VFrame) (s : State) : Host.Outcome State Fault Refusal := .next (finish s (s.vorlaIn 0x11 f State.loadChunkReq))

/-- The bytes of a load in ascending order while its chunks follow one another without a gap. -/
def joinChunks : Nat → Tab (List Byte) → List Byte
  | _, [] => []
  | at_, c :: t =>
    if c.1 ≤ at_ then c.2.drop (at_ - c.1) ++ joinChunks (max at_ (c.1 + c.2.length)) t else []

/-- PAGES data written to the partition's pages (R361). -/
def State.loadPages (s : State) (p : Nat) (va : Nat) (bs : List Byte) : Status × State :=
  match s.part p with
  | none => (.notReady, s)
  | some x => if x.rangeMapped va bs.length then (.ok, s.writeVa x va bs) else (.refused, s)

/-- What LOAD_END does with a whole load, by TARGET and mode (R361, R373, R380). -/
def State.loadInstall (s : State) (p : Nat) (l : OpenLoad) (bs : List Byte) : Status × State :=
  match l.target with
  | 0 =>
    if s.firm.mode = .run then
      if 16777216 < bs.length then (.badFormat, s)
      else if s.firm.phase ≠ .idle then (.busy, s)
      else (.ok, { s with firm := { s.firm with stagedBytes := bs } })
    else s.bootLoad bs
  | 1 => s.loadProgram p bs l.length
  | _ => s.loadPages p l.va bs

/-- LOAD_END (R361): closes the load; its reply reports the load's STATUS. -/
def State.loadEndReq (r : Req) (s : State) : State :=
  match (s.box r.box).openLoad with
  | none => s.reply r .refused []
  | some l =>
    if s.trust.bootLocked then s.reply r .refused []
    else if r.payload ≠ [] then s.reply r .badFormat []
    else
      let s := s.updBox r.box fun b => { b with openLoad := none }
      let bs := joinChunks 0 l.chunks
      if bs.length ≠ l.length then s.reply r .badFormat []
      else
        let x := s.loadInstall r.box l bs
        x.2.reply r x.1 []

def execLoadEnd (f : VFrame) (s : State) : Host.Outcome State Fault Refusal := .next (finish s (s.vorlaIn 0x12 f State.loadEndReq))

/-! ## LOG_READ -/

/-- Oldest Plate offset still held: the ring's 256 KiB and the 64 MiB mirror of the copied quarters (R391). -/
def FirmState.plateOldest (f : FirmState) : Nat := min (f.plateNext - 262144) (65536 * f.mirrored - 67108864)

/-- LOG_READ (R362, R391, R410, R419). -/
def State.logReadReq (r : Req) (s : State) : State :=
  let src := field r.payload 0 1
  let tile := field r.payload 2 2
  let len := field r.payload 4 4
  let addr := field r.payload 8 8
  if r.payload.length ≠ 16 ∨ 2 < src ∨ !(zeroBytes r.payload 1 1) ∨ 16777216 < len then s.reply r .badFormat []
  else
    match src with
    | 0 =>
      let at_ := max addr s.firm.plateOldest
      s.replyStream r .ok false at_ (s.firm.plate.read at_ (min len (s.firm.plateNext - at_)))
    | 1 =>
      if r.box = 0 ∨ !((s.tilesOf r.box).contains tile) then s.reply r .refused []
      else if addr < 0xFC00 ∨ 0xFE00 * 64 < addr * 64 + len then s.reply r .badFormat []
      else s.replyStream r .ok false 0 ((s.tile tile).sram.read (addr * 64) len)
    | _ =>
      match s.part r.box with
      | none => s.reply r .refused []
      | some x =>
        if x.sealed_.isSome ∨ !(x.rangeMapped addr len) then s.reply r .refused []
        else s.replyStream r .ok true 0 (s.readVa x addr len)

def execLogRead (f : VFrame) (s : State) : Host.Outcome State Fault Refusal := .next (finish s (s.vorlaIn 0x60 f State.logReadReq))

end Sys2Proof.Machine
end

