-- ==== Sys2Proof/Machine/Partition.lean ====
section
/-! DEFINITION. PART_CREATE, PART_DESTROY, PART_QUERY, TRACE_SET and lock-step pairing (R26, R29, R277, R333-R336, R363). -/

namespace Sys2Proof.Machine

/-! ## PART_CREATE -/

/-- The payload of Table 12-8. -/
structure CreateReq where
  rect : Rect
  flags : Nat
  vaLimit : Nat
  pages : Nat
  touch : Nat
  share : List (Nat × Nat)
  deriving DecidableEq, Repr

def CreateReq.of (b : List Byte) : CreateReq :=
  { rect := ⟨field b 0 1, field b 2 1, field b 3 1, field b 4 1, field b 5 1⟩, flags := field b 1 1, vaLimit := field b 8 8,
    pages := field b 16 4, touch := field b 20 4,
    share := (List.range (field b 6 1)).map fun i => (field b (24 + 2 * i) 1, field b (25 + 2 * i) 1) }

/-- A PORT_ID of Table 12-9. -/
def portDefined (id : Nat) : Bool := decide (id < 0x18) || decide (0x20 ≤ id ∧ id < 0x40)

/-- The payload breaks R28, sets a reserved field, or asks for more pages than its VA range (R334). -/
def CreateReq.wellFormed (c : CreateReq) (b : List Byte) (rows : Nat) : Bool :=
  let n := c.share.length
  decide (b.length = 24 + 2 * n) && decide (1 ≤ n ∧ n ≤ 16) && decide (1 ≤ c.rect.part ∧ c.rect.part ≤ 64) && decide (c.flags < 4) &&
    zeroBytes b 7 1 && decide (c.vaLimit % 2 ^ 21 = 0) && decide (c.vaLimit ≤ 2 ^ 43) && decide (c.pages + c.touch ≤ c.vaLimit / 2 ^ 21) &&
    c.rect.shapeOk rows && c.share.all fun e => portDefined e.1 && decide (1 ≤ e.2 ∧ e.2 ≤ 64)

/-- Bulk weights that existing partitions hold on a port (R288). -/
def State.portWeight (s : State) (id : Nat) : Nat :=
  s.parts.foldl (fun n e => e.2.share.foldl (fun n q => if q.1 = id then n + q.2 else n) n) 0

/-- Weight that a share asks for on a port. -/
def shareWeight (share : List (Nat × Nat)) (id : Nat) : Nat := share.foldl (fun n q => if q.1 = id then n + q.2 else n) 0

/-- A journaled job of the partition awaits a restore (R344). -/
def State.pendingJobs (s : State) (p : Nat) : List Job := s.journal.jobs.filter fun j => decide (j.part = p ∧ j.state = 3)

/-- PART_CREATE is not permitted (R29, R288, R334, R344, R399). -/
def State.createRefused (s : State) (c : CreateReq) : Bool :=
  decide (s.lifeCycle = 1) || decide (s.lifeCycle = 3) || s.parts.has c.rect.part || (s.rect c.rect.part).isSome ||
    s.geom.any (fun q => q.overlaps c.rect) ||
    s.rectDown c.rect || (c.share.any fun e => !(s.fuses.hasPort e.1) || decide (64 < s.portWeight e.1 + shareWeight c.share e.1)) ||
    (s.pendingJobs c.rect.part).any fun j => decide (j.rect ≠ c.rect) || decide (j.pflags ≠ c.flags) || decide (j.share ≠ c.share)

/-- The page table that PART_CREATE leaves for its mapped pages (R333). -/
def firstPtes (par : Bool) (fs : List Nat) : Tab Word := fs.mapIdx fun i f => (i, mkPte true 0 par true f)

/-- The partition of a PART_CREATE: its rectangle joins the others, its pages are cleared, its tiles are at their reset values, its memory key is
fresh. The frames fs are its pages and its reserve, gs those of its page tables; HBM and Headwater are as taking them has left both (R196, R235,
R333, R334, R407). -/
def State.buildPart (s : State) (c : CreateReq) (fs gs : List Nat) (hbm : HbmState) (ent : EntropyState) (key : KeyPair) : State :=
  let ptes := firstPtes (bit c.flags 0) (fs.take c.pages)
  let p := c.rect.part
  let x : Part := { flags := c.flags, share := c.share, vaLimit := c.vaLimit, ptes := ptes, touch := decide (0 < c.touch),
                    level1 := firstLevel1 c.vaLimit gs, tables := gs,
                    reserve := fs.drop c.pages, awaitRestore := !(s.pendingJobs p).isEmpty }
  { s with geom := s.geom ++ [c.rect], parts := s.parts.set p x,
           tiles := c.rect.tiles.foldl (fun t i => t.erase i) s.tiles,
           hbm := ptes.foldl (fun (h : HbmState) (e : Nat × Word) => h.clearPage e.2) hbm,
           ent := ent,
           trust := { s.trust with memKeys := s.trust.memKeys.set (2 * (p - 1)) key } }

/-- The frames of a partition being built, and the state with them taken. -/
structure CreateFrames where
  pages : List Nat
  tables : List Nat
  after : State
  deriving DecidableEq, Repr

/-- The frames that PART_CREATE takes: the pages and the reserve for the partition, then those of its page tables, which no partition maps
(R235, R333). -/
def State.createFrames (s : State) (c : CreateReq) : Option CreateFrames :=
  (State.takeFrames (bit c.flags 0) c.rect.part (c.pages + c.touch) 0 s).bind fun f =>
    (State.takeFrames false 0 (tableFrames c.vaLimit) 0 f.2).map fun g => ⟨f.1, g.1, g.2⟩

/-- The partition built (R196, R235, R333): tiles and pages zeroed, tables, reserve, share, mailbox, and the
reply with CENSUS. -/
def State.createPart (s : State) (r : Req) (c : CreateReq) : State :=
  match s.createFrames c with
  | none => s.reply r .limit []
  | some f => (s.buildPart c f.pages f.tables f.after.hbm f.after.drawKeyPair.2.ent f.after.drawKeyPair.1).reply r .ok (beBytes 4 c.rect.census)

/-- PART_CREATE (R334); it answers only once its memory key exists (R407, R439). With 64 partitions every number is in use, so the limit is
tested first: R29 answers ST_LIMIT then (DEDUCED, log 125: R334 gives no order). -/
def State.partCreateReq (r : Req) (s : State) : State :=
  let c := CreateReq.of r.payload
  if !(c.wellFormed r.payload s.fuses.rows) then s.reply r .badFormat []
  else if 64 ≤ s.geom.length then s.reply r .limit []
  else if s.createRefused c then s.reply r .refused []
  else s.withEntropy r fun s => s.createPart r c

def execPartCreate (f : VFrame) (s : State) : Host.Outcome State Fault Refusal := .next (finishGeom s (s.vorlaIn 0x30 f State.partCreateReq))

/-! ## PART_DESTROY -/

/-- Every journaled job of a partition without a completion ends, in JOB_ID order (R335, step 2). -/
def State.endAll (s : State) (p : Nat) : State :=
  (s.journal.jobs.filter fun j => decide (j.part = p ∧ j.state ≠ 2)).foldl (fun s j => s.endQueued j .aborted) s

/-- A stream or PREEMPT in progress ends ST_ABORTED, and a JOB_CANCEL has its effect (R335, step 4; R350). -/
def State.abortStream (s : State) (p : Nat) : State :=
  let s := (s.box p).partials.foldl (fun s q =>
    if q.opcode = 0x51 then s.reply { box := p, opcode := 0x51, tag := q.tag } .aborted [] else s) s
  match s.part p with
  | some x =>
    let s := match x.cancelTag with
      | some tag => s.reply { box := p, opcode := 0x43, tag := tag } .ok []
      | none => s
    match x.hold with
    | .stopping tag why _ => if why ≤ 3 then s.reply { box := p, opcode := if why = 0 then 0x52 else 0x50, tag := tag } .aborted [] else s
    | _ => s
  | none => s

/-- A rotation in progress is answered ST_ABORTED (R416). -/
def State.abortRotation (s : State) (p : Nat) : State :=
  match s.trust.rotations.find p with
  | some t => s.rotationReply p t .aborted
  | none => s

/-- Keys destroyed, tiles and pages zeroed, frames back in the free pool (R335, step 5). -/
def State.wipePart (s : State) (p : Nat) : State :=
  match s.part p with
  | none => s
  | some x =>
    let par := bit x.flags 0
    let pages : Tab Word := x.ptes.filter fun e => pteValid e.2
    let h := pages.foldl (fun (h : HbmState) (e : Nat × Word) => h.clearPage e.2) s.hbm
    let s := { s with hbm := { h with changes := s.hbm.changes.filter fun c => decide (c.part ≠ p) } }
    let s := pages.foldl (fun (s : State) (e : Nat × Word) => s.freeFrames (ptePar e.2) [pteFrame e.2]) s
    let s := (s.freeFrames par x.reserve).freeFrames false x.tables
    let s := match x.program with
      | some g => s.freeFrames false g.frames
      | none => s
    { s with tiles := (s.tilesOf p).foldl (fun t i => t.erase i) s.tiles, parts := s.parts.erase p,
             trust := { s.trust with memKeys := (s.trust.memKeys.erase (2 * (p - 1))).erase (2 * (p - 1) + 1),
                                     release := s.trust.release.erase p, rotations := s.trust.rotations.erase p } }

/-- PART_DESTROY (R335). -/
def State.partDestroyReq (r : Req) (s : State) : State :=
  let p := field r.payload 0 1
  if r.payload.length ≠ 1 ∨ p = 0 ∨ 64 < p then s.reply r .badFormat []
  else if !(s.parts.has p) then s.reply r .notReady []
  else
    let g := s.geom
    let u := s.fuses
    let s := (((s.endJob p .aborted).endAll p).unpair p).abortStream p
    let t := ((s.abortRotation p).endDeferred p).wipePart p
    let t := t.shaped u (g.filter fun q => decide (q.part ≠ p))
    (t.updBox p Mailbox.close).reply r .ok []

def execPartDestroy (f : VFrame) (s : State) : Host.Outcome State Fault Refusal := .next (finishGeom s (s.vorlaIn 0x31 f State.partDestroyReq))

/-! ## PART_QUERY (R336) -/

/-- The record of one partition. -/
def State.partInfo (s : State) (q : Rect) : List Byte :=
  match s.part q.part with
  | some x =>
    beBytes 1 q.part ++ beBytes 1 q.x0 ++ beBytes 1 q.y0 ++ beBytes 1 q.w ++ beBytes 1 q.h ++ beBytes 1 x.flags ++
      beBytes 1 x.share.length ++ [0] ++ beBytes 4 q.census ++ beBytes 4 x.mapped.length ++ beBytes 4 x.reserve.length
  | none => []

/-- Usable spares of a die column (R24): good positions of the column beyond those the grid needs. -/
def State.spares (s : State) (die col : Nat) : Nat :=
  ((List.range 13).filter fun k => s.enabled (die % 4 * 12 + col) (die / 4 * 13 + k)).length - s.fuses.lrows

/-- A bit map of n bits in so many bytes; bit i is bit i mod 8 of byte i / 8. -/
def bitMap (bytes : Nat) (f : Nat → Bool) : List Byte :=
  (List.range bytes).map fun i => BitVec.ofNat 8 ((List.range 8).foldl (fun n j => if f (8 * i + j) then n + 2 ^ j else n) 0)

/-- A quad the map names: unavailable for any rectangle, or for the partition that holds it (R26, R216). -/
def State.quadShut (s : State) (i : Nat) : Bool :=
  s.quadDown (fun _ => false) i || s.geom.any fun q => q.quads.contains i && s.quadDown q.has i

/-- State of a parity group: 0 NORMAL, 1 DEGRADED, 2 LOST, 3 ABSENT. -/
def State.groupState (s : State) (g : Nat) : Nat :=
  if !(s.fuses.hasGroup g) then 3
  else min 2 ((List.range 8).filter fun k => (s.hbm.stackTab.getD (8 * g + k) {}).lost).length

/-- PART_QUERY. -/
def State.partQueryReq (r : Req) (s : State) : State :=
  if r.payload ≠ [] then s.reply r .badFormat []
  else if r.box ≠ 0 then
    match s.rect r.box with
    | some q => s.reply r .ok (s.partInfo q)
    | none => s.reply r .notReady []
  else
    let quads := 12 * ((s.fuses.rows + 3) / 4)
    s.reply r .ok ((s.geom.flatMap s.partInfo) ++ ((List.range 24).flatMap fun d => (List.range 12).map fun c => BitVec.ofNat 8 (s.spares d c)) ++
      bitMap 32 (fun i => decide (i < quads) && s.quadShut i) ++ bitMap 64 (fun n => decide (n < 464) && s.linkDown n) ++
      (List.range 6).map fun g => BitVec.ofNat 8 (s.groupState g))

def execPartQuery (f : VFrame) (s : State) : Host.Outcome State Fault Refusal := .next (finish s (s.vorlaIn 0x32 f State.partQueryReq))

/-! ## TRACE_SET and LOCKSTEP_PAIR -/

/-- TRACE_SET (R273, R363): from the next step boundary; with no job running the level is in force at the next job's start. -/
def State.traceSetReq (r : Req) (s : State) : State :=
  let level := field r.payload 0 1
  if r.payload.length ≠ 8 ∨ 2 < level ∨ !(zeroBytes r.payload 1 3) then s.reply r .badFormat []
  else (s.updPart r.box fun x => { x with nextLevel := some (level, field r.payload 4 4) }).reply r .ok []

def execTraceSet (f : VFrame) (s : State) : Host.Outcome State Fault Refusal := .next (finish s (s.vorlaIn 0x61 f State.traceSetReq))

/-- LOCKSTEP_PAIR (R277, R364). -/
def State.lockstepReq (r : Req) (s : State) : State :=
  let b := r.payload
  let part := field b 0 1
  let peerPart := field b 1 1
  let peerPanel := field b 2 2
  let pairId := field b 4 4
  let lag := field b 8 1
  let un := field b 9 1
  let timeout := field b 10 2
  match s.part r.box with
  | none => s.reply r .notReady []
  | some x =>
    if b.length ≠ 16 ∨ part ≠ r.box ∨ 1 < un ∨ !(zeroBytes b 12 4) then s.reply r .badFormat []
    else if un = 1 then
      if !(zeroBytes b 1 8) ∨ !(zeroBytes b 10 2) then s.reply r .badFormat []
      else if x.run.isSome then s.reply r .busy []
      else (s.unpair r.box).reply r .ok []
    else if peerPart = 0 ∨ 64 < peerPart ∨ (peerPanel = s.panel ∧ peerPart = part) ∨ lag = 0 ∨ 16 < lag ∨ timeout = 0 then s.reply r .badFormat []
    else if x.run.isSome ∨ x.pairing.isSome then s.reply r .busy []
    else if s.trib.lost.contains peerPanel then s.reply r .peerLost []
    else
      let k : Pairing := { peerPanel := peerPanel, peerPart := peerPart, pairId := BitVec.ofNat 32 pairId, lag := lag,
                           timeout := timeout }
      (s.updPart r.box fun x => { x with pairing := some k }).reply r .ok []

def execLockstepPair (f : VFrame) (s : State) : Host.Outcome State Fault Refusal := .next (finish s (s.vorlaIn 0x73 f State.lockstepReq))
def execUnpair (f : VFrame) (s : State) : Host.Outcome State Fault Refusal := .next (finish s (s.vorlaIn 0x73 f State.lockstepReq))

end Sys2Proof.Machine
end

