-- ==== Sys2Proof/Machine/Image.lean ====
section
/-! DEFINITION. Context images and checkpoint streams: header, envelope, seal, and what a restore checks and applies (R255-R259, R348,
R349, R420). -/

namespace Sys2Proof.Machine

/-! ## Writing -/

/-- The seed a context carries: what the tiles hold (R128). -/
def State.contextSeed (s : State) (p : Nat) : Nat :=
  match s.rect p with
  | some q => (s.tile (tileIx q.x0 q.y0)).seed
  | none => 0

/-- Panels of the job, minus 1 (R257): of the running job, else of the loaded program. -/
def State.contextPanels (s : State) (p : Nat) : Nat :=
  match s.running p, s.part p with
  | some (_, j), _ => j.panels
  | none, some x =>
    match x.program with
    | some g => g.panels
    | none => 0
  | none, none => 0

def encBytes (bs : List Byte) : List Nat := encNats (bs.map BitVec.toNat)
def encParts (ps : Tab (List Byte)) : List Nat := encList (fun e => e.1 :: encBytes e.2) ps
def encOpt (o : Option Nat) : List Nat :=
  match o with
  | none => [0]
  | some n => [1, n]

/-- An entry of the chain inbox (R105, R109). -/
def ChainIn.enc (c : ChainIn) : List Nat :=
  [c.id, c.step, c.lead, c.op, encBool c.mixed, encBool c.abort] ++ encOpt c.total ++ encParts c.parts

/-- An entry of the halo inbox (R165). The tiles that have moved theirs stand by their index in the partition. -/
def HaloIn.enc (ix : Nat → Nat) (h : HaloIn) : List Nat :=
  [h.panel, h.src, h.step, h.sweep, h.colour, encBool h.wide] ++ encOpt h.total ++ encParts h.parts ++ encNats (h.moved.map ix)

/-- The inboxes of a partition, which a context holds (R109, R112). -/
def Part.encInboxes (x : Part) (ix : Nat → Nat) : List Nat := encList ChainIn.enc x.chainIn ++ encList (HaloIn.enc ix) x.haloIn

/-- What an image carries of its job beyond the header (log 44). A PORTABLE one holds no tile, so the flags of its tiles go with the job's
(R54). -/
def State.jobTail (s : State) (p form : Nat) : List Nat :=
  match s.running p with
  | some (r, _) =>
    [1, r.digest.toNat, if form = 0 then r.fp else r.fp ||| s.fpOr p, encBool (r.unbounded || (s.tilesOf p).any fun t => (s.tile t).array.unbounded), encBool r.relaxed,
      encBool r.digestBad]
  | none => [0, 0, 0, 0, 0, 0]

/-- The section of one tile: its index in the partition, its length, its bytes. -/
def State.tileSection (s : State) (q : Rect) (t : Nat) : List Byte :=
  let b := natsBytes ((s.tile t).enc q.indexOf)
  leBytes 4 (q.indexOf t) ++ leBytes 4 b.length ++ b

/-- A context image (R255, R256). -/
def State.image (s : State) (p form : Nat) : List Byte :=
  match s.part p, s.rect p with
  | some x, some q =>
    let canon := s.canonical p
    let shape := match x.program with
      | some g => bit g.flags 0
      | none => false
    let waits := q.tiles.any fun t => (s.tile t).ferry.slots.any fun e => decide (e.2.phase = .faultWait)
    let tiles := if form = 0 then q.tiles else []
    let family := match x.program with
      | some g => fitBytes 32 g.family
      | none => List.replicate 32 0
    let digest := match x.program with
      | some g => fitBytes 32 g.digest
      | none => List.replicate 32 0
    leBytes 4 0x5A4D4358 ++ leBytes 2 1 ++ leBytes 1 form ++ leBytes 1 (bnat canon + bnat shape * 2 + bnat (waits && decide (form = 0)) * 4) ++
      leBytes 4 q.census ++ leBytes 2 (s.contextPanels p) ++ leBytes 1 s.fuses.build ++ leBytes 1 s.fuses.gradeCode ++
      leBytes 8 x.meridian.toNat ++ leBytes 16 (s.contextSeed p) ++ family ++ digest ++ leBytes 4 x.mapped.length ++
      leBytes 4 tiles.length ++ List.replicate 16 0 ++ tiles.flatMap (s.tileSection q) ++ natsBytes (s.jobTail p form ++ x.encInboxes q.indexOf)
  | _, _ => []

/-- Every mapped page: its VA and its bytes (R348). -/
def State.pageStream (s : State) (x : Part) : List Byte :=
  x.mapped.flatMap fun v => beBytes 8 (v * 2 ^ 21) ++ s.readVa x (v * 2 ^ 21) (2 ^ 21)

/-- The envelope of R348. -/
def State.envelope (s : State) (p flags imgBytes pageBytes : Nat) : List Byte :=
  beBytes 4 0x5A4D4556 ++ beBytes 1 p ++ beBytes 1 flags ++ [0, 0] ++ beBytes 4 (s.journal.marks.getD p 0xFFFFFFFF).toNat ++ [0, 0, 0, 0] ++
    beBytes 8 imgBytes ++ beBytes 8 pageBytes

/-- SEAL (R420). -/
def State.ckptSeal (s : State) (p : Nat) (stream : List Byte) : List Byte :=
  kmac256 ((s.box p).kMac.getD nullKey) (digest256 stream) 16 "ZM1-CKPT"

/-- The reply stream of a save (R348, R410, R420). -/
def State.sendSave (s : State) (r : Req) (flags : Nat) (img : List Byte) : State :=
  match s.part r.box with
  | none => s.reply r .notReady []
  | some x =>
    let pages := if bit flags 0 then s.pageStream x else []
    let stream := s.envelope r.box flags img.length pages.length ++ img ++ pages
    s.replyStream r .ok true 0 (stream ++ s.ckptSeal r.box stream)

/-! ## Reading -/

/-- A stream as a restore reads it. -/
structure Restore where
  mark : Nat
  form : Nat
  canon : Bool
  census : Nat
  panels : Nat
  build : Nat
  grade : Nat
  meridian : Nat
  seed : Nat
  family : List Byte
  digest : List Byte
  pageCount : Nat
  tiles : List (Nat × List Nat)
  /-- The tile sections are whole. -/
  sound : Bool
  tail : List Nat
  hasPages : Bool
  pages : List (Nat × List Byte)
  deriving DecidableEq, Repr

/-- Tile sections, n of them, with what follows. -/
def readSections : Nat → List Byte → Option (List (Nat × List Nat) × List Byte)
  | 0, bs => some ([], bs)
  | n + 1, bs =>
    let len := leField bs 4 4
    if bs.length < 8 + len then none
    else
      (readSections n (bs.drop (8 + len))).map fun r =>
        ((leField bs 0 4, bytesNats len ((bs.drop 8).take len)) :: r.1, r.2)

/-- Pages of a stream. -/
def readPages : Nat → List Byte → List (Nat × List Byte)
  | 0, _ => []
  | n + 1, bs => if bs.isEmpty then [] else (field bs 0 8, (bs.drop 8).take (2 ^ 21)) :: readPages n (bs.drop (8 + 2 ^ 21))

def decBytes : Dec (List Byte) := decList (decBv 8)
def decParts : Dec (Tab (List Byte)) := do
  let es ← decList (do
    let k ← decNat
    let b ← decBytes
    pure (k, b))
  pure (es.foldl (fun (t : Tab (List Byte)) e => t.set e.1 e.2) [])
def decOpt : Dec (Option Nat) := do
  let b ← decBool
  if b then do
      let n ← decNat
      pure (some n)
    else pure none

def ChainIn.dec : Dec ChainIn := do
  let id ← decNat
  let step ← decNat
  let lead ← decNat
  let op ← decNat
  let mixed ← decBool
  let abort ← decBool
  let total ← decOpt
  let parts ← decParts
  pure { id := id, step := step, lead := lead, op := op, mixed := mixed, parts := parts, total := total, abort := abort }

def HaloIn.dec (at_ : Nat → Nat) : Dec HaloIn := do
  let panel ← decNat
  let src ← decNat
  let step ← decNat
  let sweep ← decNat
  let colour ← decNat
  let wide ← decBool
  let total ← decOpt
  let parts ← decParts
  let moved ← decList decNat
  pure { panel := panel, src := src, step := step, sweep := sweep, colour := colour, wide := wide, parts := parts, total := total,
         moved := moved.map at_ }

/-- The inboxes an image holds; none where its tail is damaged. -/
def decInboxes (at_ : Nat → Nat) : Dec (List ChainIn × List HaloIn) := do
  let cs ← decList ChainIn.dec
  let hs ← decList (HaloIn.dec at_)
  pure (cs, hs)

/-- The envelope and the image, or none by row 1 of Table 9-13. The sections after the header are the model's own layout (log 44): what is
wrong with them is judged after the rows of the table. -/
def readStream (bs : List Byte) : Option Restore :=
  let img := bs.drop 32
  let imgLen := field bs 16 8
  let pageLen := field bs 24 8
  let envOk := decide (48 ≤ bs.length) && decide (field bs 0 4 = 0x5A4D4556) && decide (field bs 5 1 ≤ 1) && zeroBytes bs 6 2 &&
    zeroBytes bs 12 4 && decide (bs.length = 32 + imgLen + pageLen + 16) && decide (pageLen % (8 + 2 ^ 21) = 0) &&
    (decide (field bs 5 1 = 1) || decide (pageLen = 0)) && decide (128 ≤ imgLen)
  let hdrOk := decide (leField img 0 4 = 0x5A4D4358) && decide (leField img 4 2 = 1) && decide (leField img 6 1 ≤ 1) &&
    decide (leField img 7 1 < 8) && zeroBytes img 112 16 && (decide (leField img 6 1 = 0) || decide (leField img 108 4 = 0))
  if !envOk || !hdrOk then none
  else
    let body := readSections (leField img 108 4) ((img.take imgLen).drop 128)
    let r := body.getD ([], [])
    some { mark := field bs 8 4, form := leField img 6 1, canon := bit (leField img 7 1) 0, census := leField img 8 4,
           panels := leField img 12 2, build := leField img 14 1, grade := leField img 15 1, meridian := leField img 16 8,
           seed := leField img 24 16, sound := body.isSome, family := (img.drop 40).take 32, digest := (img.drop 72).take 32,
           pageCount := leField img 104 4, tiles := r.1, tail := bytesNats r.2.length r.2, hasPages := decide (field bs 5 1 = 1),
           pages := readPages (pageLen / (8 + 2 ^ 21)) ((img.drop imgLen).take pageLen) }

/-- The decision of Table 9-13 from row 3 on, then of R281 and R344. -/
def State.restoreStatus (s : State) (p : Nat) (x : Part) (v : Restore) (force : Bool) : Status :=
  match x.program with
  | none => .refused
  | some g =>
    let same := decide (v.census = s.census p ∧ v.panels = s.contextPanels p)
    if v.family ≠ fitBytes 32 g.family then .refused
    else if x.mapped.length + x.reserve.length < v.pageCount then .limit
    else if v.form = 0 ∧ (!same ∨ v.build ≠ s.fuses.build ∨ v.grade ≠ s.fuses.gradeCode ∨ v.digest ≠ fitBytes 32 g.digest) then .refused
    else
      let st := if same then Status.ok
        else if v.canon then .shapeChanged
        else if force then .shapeChanged else .refused
      if st = .shapeChanged ∧ x.pairing.isSome then .refused
      else if x.awaitRestore ∧ st ≠ .refused ∧ v.mark ≠ (s.journal.marks.getD p 0xFFFFFFFF).toNat then .refused
      else st

/-- Pages of the stream written; a page of the first-touch reserve is mapped first (R349; log 48). -/
def State.restorePages (s : State) (p : Nat) (pages : List (Nat × List Byte)) : State :=
  pages.foldl (fun s pg =>
    match s.part p with
    | none => s
    | some x =>
      let vpn := pg.1 / 2 ^ 21
      match pteValid (x.pte vpn), x.reserve with
      | false, f :: rest =>
        let x := { x with ptes := x.ptes.set vpn (mkPte true x.gen (bit x.flags 0) true f), reserve := rest }
        (s.setPart p x).writeVa x pg.1 pg.2
      | false, [] => s
      | true, _ => s.writeVa x pg.1 pg.2) s

/-- A tile before a load handler or a job runs: SRAM, seed, Riffle status and EYEPIECE stay, every unit is at its reset values
(R54, R261, R510; log 49). -/
def TileState.fresh (x : TileState) : TileState :=
  { sram := x.sram, seedHi := x.seedHi, seedLo := x.seedLo, checkErr := x.checkErr, romErr := x.romErr, katFail := x.katFail,
    checkLane := x.checkLane, eyepiece := x.eyepiece }

/-- A tile takes a saved context; its Riffle status is its own, no part of the context (R128, R129). -/
def TileState.withStatus (x y : TileState) : TileState :=
  { y with checkErr := x.checkErr, romErr := x.romErr, katFail := x.katFail, checkLane := x.checkLane, riffleStop := x.riffleStop }

/-- The tiles of a partition set from the sections of a BOUND image, or made fresh for the load handler of a PORTABLE one. -/
def State.restoreTiles (s : State) (p : Nat) (v : Restore) : State :=
  match s.rect p with
  | none => s
  | some q =>
    let at_ := fun ix => tileIx (q.x0 + ix % q.w) (q.y0 + ix / q.w)
    if v.form = 0 then
      v.tiles.foldl (fun s e =>
        match (TileState.dec v.seed at_).run e.2 with
        | some r => s.updTile (at_ e.1) fun x => x.withStatus r.1
        | none => s) s
    else
      s.updTiles q.tiles fun x =>
        { x.fresh with seedHi := BitVec.ofNat 64 (v.seed / 2 ^ 64), seedLo := BitVec.ofNat 64 v.seed }

/-- The inboxes that a stream restores to a partition. -/
def State.restoreInboxes (s : State) (p : Nat) (v : Restore) : Option (List ChainIn × List HaloIn) :=
  match s.rect p with
  | none => none
  | some q => ((decInboxes fun ix => tileIx (q.x0 + ix % q.w) (q.y0 + ix / q.w)).run (v.tail.drop 6)).map (·.1)

/-- Every section decodes and names a tile of the partition. -/
def State.sectionsOk (s : State) (p : Nat) (v : Restore) : Bool :=
  match s.rect p with
  | none => false
  | some q => v.sound && (s.restoreInboxes p v).isSome && v.tiles.all fun e => decide (e.1 < q.w * q.h) && ((TileState.dec v.seed id).run e.2).isSome

/-- Pending jobs back in the queue after a restore (R344). -/
def Journal.requeue (j : Journal) (p : Nat) : Journal :=
  { j with jobs := j.jobs.map fun e =>
      if e.part = p ∧ e.state = 3 then
        { e with state := 0, rerun := true, reruns := if e.wasRunning then e.reruns + 1 else e.reruns, wasRunning := false }
      else e }

/-- The same group of boundary states, by the key of R165. -/
def HaloIn.sameGroup (a b : HaloIn) : Bool :=
  decide (a.panel = b.panel ∧ a.src = b.src ∧ a.step = b.step ∧ a.sweep = b.sweep ∧ a.colour = b.colour)

/-- What a stream restores of its job, applied to one that runs or starts (R258, R268, R270). -/
def RunJob.restore (c : Context) (r : RunJob) : RunJob :=
  { r with restores := r.restores + c.restores, digest := c.digest, fp := c.fp, unbounded := c.unbounded, relaxed := c.relaxed,
           digestBad := c.digestBad, censusStart := c.census, shapeChanged := r.shapeChanged || c.shapeChanged,
           forced := r.forced || c.forced, loading := c.portable }

/-- The context a stream holds, after so many earlier restores of it. -/
def Restore.context (v : Restore) (shape force : Bool) (earlier : Option Context) : Context :=
  { portable := decide (v.form = 1), digest := BitVec.ofNat 64 (v.tail.getD 1 0), fp := v.tail.getD 2 0,
    unbounded := decide (v.tail.getD 3 0 = 1), relaxed := decide (v.tail.getD 4 0 = 1), digestBad := decide (v.tail.getD 5 0 = 1),
    census := v.census, shapeChanged := shape || (earlier.map (·.shapeChanged)).getD false,
    forced := (shape && !v.canon && force) || (earlier.map (·.forced)).getD false,
    restores := 1 + (earlier.map (·.restores)).getD 0 }

/-- The context applied (R257, R258, R267, R344, R349). Entries of the inboxes that the panel already holds stand (R105, R112, R165). -/
def State.restoreApply (s : State) (p : Nat) (v : Restore) (st : Status) (force : Bool) : State :=
  let inbox := (s.restoreInboxes p v).getD ([], [])
  let s := if v.hasPages then s.restorePages p v.pages else s
  let s := s.restoreTiles p v
  let started := decide (v.tail.getD 0 0 = 1)
  let shape := decide (st = .shapeChanged)
  let s := s.updPart p fun x =>
    { x with meridian := BitVec.ofNat 64 v.meridian, run := x.run.map (RunJob.restore (v.context shape force none)),
             restored := if x.run.isNone && started then some (v.context shape force x.restored) else none,
             chainIn := x.chainIn ++ inbox.1.filter fun c => !(x.chainIn.any fun d => decide (d.id = c.id ∧ d.step = c.step)),
             haloIn := x.haloIn ++ inbox.2.filter fun h => !(x.haloIn.any h.sameGroup),
             hold := if x.awaitRestore then .free else .rest, awaitRestore := false }
  { s with journal := s.journal.requeue p }

end Sys2Proof.Machine
end

