-- ==== Sys2Proof/Machine/Boundary.lean ====
section
/-! DEFINITION. The step boundary of a partition, lock-step comparison, and how a partition comes to rest (R252, R266-R268, R273,
R278-R281, R306, R342, R347, R348). -/

namespace Sys2Proof.Machine

/-! ## Lock-step -/

/-- LOCKSTEP of the running job and its pairing. -/
def State.pairOf (s : State) (p : Nat) : Option Pairing :=
  match s.part p with
  | some x =>
    match x.run with
    | some r => if r.lockstep then x.pairing else none
    | none => none
  | none => none

def State.updPair (s : State) (p : Nat) (f : Pairing → Pairing) : State :=
  s.updPart p fun x => { x with pairing := x.pairing.map f }

/-- START fields after MERIDIAN: PROG_FAMILY, SEED, CENSUS, RED_MODE, PANELS (Table 10-9). -/
def State.startFields (s : State) (p : Nat) (j : Job) : List Byte :=
  let family := match s.part p with
    | some x =>
      match x.program with
      | some g => fitBytes 32 g.family
      | none => List.replicate 32 0
    | none => List.replicate 32 0
  family ++ beBytes 16 j.seed ++ beBytes 4 (s.census p) ++ beBytes 1 (bnat (bit j.flags 1)) ++ [0] ++ beBytes 2 j.panels

/-- START of a paired job (R278). -/
def State.startPayload (s : State) (p : Nat) (pr : Pairing) (j : Job) : List Byte :=
  lsPayload pr.pairId 0 j.start.toNat 0 (s.startFields p j)

/-- The job of a partition is frozen at a step: it comes to rest and then ends ST_ABORTED (R280, R282, R486). A mismatch that shows
only after a FREEZE of the same step marks the frozen job DIVERGED (log 121). -/
def State.freeze (s : State) (p step : Nat) (diverged : Bool) : State :=
  s.updPart p fun x =>
    { x with run := x.run.map (fun r =>
               if r.frozen.isSome then { r with diverged := r.diverged || (diverged && decide (r.frozen = some step)) }
               else { r with frozen := some step, diverged := diverged }),
             hold := match x.hold with
               | .free => .stopping 0 4 false
               | h => h }

/-- The side that finds a difference raises 0x1001, sends FREEZE and stops (R280). -/
def State.diverge (s : State) (p step : Nat) (pr : Pairing) : State :=
  ((s.raise { det := 0x1001, part := p }).lsSend p pr (lsPayload pr.pairId 2 step 0 [])).freeze p step true

/-- Compares the digests of every step that both sides have, lowest first (R279, R280). -/
def State.compareDigests : Nat → State → Nat → State
  | 0, s, _ => s
  | n + 1, s, p =>
    match s.pairOf p with
    | none => s
    | some pr =>
      match pr.own.find? fun e => pr.peers.has e.1 with
      | none => s
      | some e =>
        if pr.peers.find e.1 = some e.2 then
          State.compareDigests n (s.updPair p fun q =>
            { q with own := q.own.erase e.1, peers := q.peers.erase e.1, compared := some (max e.1 (q.compared.getD 0)) }) p
        else s.diverge p e.1 pr

/-- DIGEST of a step sent and held for comparison (R279). -/
def State.sendDigest (s : State) (p step : Nat) (d : Word) : State :=
  match s.pairOf p with
  | none => s
  | some pr =>
    let s := s.lsSend p pr (lsPayload pr.pairId 1 step d.toNat [])
    let s := s.updPair p fun q => { q with own := q.own.set step d }
    s.compareDigests 17 p

/-- A step of a paired job has never been compared and found equal (R279). A step that a restored job runs again has. -/
def Pairing.uncompared (pr : Pairing) (step : Nat) : Bool :=
  match pr.compared with
  | some c => decide (c < step)
  | none => true

/-- MERIDIAN may advance by one: step s is compared before s + LAG + 1 is entered (R279). -/
def State.mayAdvance (s : State) (p : Nat) : Bool :=
  match s.pairOf p with
  | some pr => !(pr.own.any fun e => decide (e.1 + pr.lag ≤ (s.meridian p).toNat) && pr.uncompared e.1)
  | none => true

/-! ## The step boundary -/

/-- The lowest trace level of a partition: STEP while it is paired (R273). -/
def Part.floorLevel (x : Part) : Nat := if x.pairing.isSome then 1 else 0

/-- A trace level that was asked for takes effect (R273, R363), at least the one given: STEP where a job starts with DIGEST. -/
def State.applyLevel (s : State) (p least : Nat) : State :=
  match s.part p with
  | none => s
  | some x =>
    let ask := x.nextLevel.getD (x.level, eyeFrom (s.tile ((s.tilesOf p).headD 0)).eyepiece)
    let level := max (max ask.1 least) x.floorLevel
    let s := s.updTiles (s.tilesOf p) (TileState.setLevel level ask.2)
    s.updPart p fun x =>
      { x with level := level, nextLevel := none, run := x.run.map fun r => { r with digestOn := r.digestOn && decide (1 ≤ level) } }

/-- What a boundary brings once MERIDIAN has advanced: the end of a job that waits for it, the stop step, a PORTABLE save (R255, R268,
R312, R485). -/
def State.afterBoundary (s : State) (p : Nat) : State :=
  match s.part p, s.running p with
  | some x, some (r, j) =>
    if r.peerLost then s.endJob p .peerLost
    else if x.meridian = j.stop ∧ j.stop ≠ BitVec.allOnes 64 ∧ x.hold = .free then
      s.updPart p fun x => { x with hold := .stopping 0 6 false }
    else
      match x.hold with
      | .stopping tag 2 pages => s.updPart p fun x => { x with hold := .stopping tag 3 pages }
      | _ => s
  | _, _ => s

/-- The running job stands at its stop step (R268). A start step of the same value is none. -/
def State.atStop (s : State) (p : Nat) : Bool :=
  match s.part p, s.running p with
  | some x, some (_, j) => decide (x.meridian = j.stop ∧ j.stop ≠ BitVec.allOnes 64 ∧ j.stop ≠ j.start)
  | _, _ => false

/-- A partition goes on; a job that has reached its stop step while it was held stops there (R268). -/
def State.goOn (s : State) (p : Nat) : State :=
  s.updPart p fun x => { x with hold := if s.atStop p then .stopping 0 6 false else .free }

/-- The boundary of the present step (R266, R267, R273, R279): MERIDIAN advances by one in every tile, or the job ends ST_LIMIT. -/
def State.advance (s : State) (p : Nat) : State :=
  match s.part p, s.running p with
  | some x, some (_, _) =>
    if x.meridian = BitVec.allOnes 64 then s.endJob p .limit
    else
      let m := x.meridian
      let level := s.traceLevel p
      let d := s.accSum p
      let s := s.updTiles (s.tilesOf p) fun t => t.boundary m level
      let s := s.updPart p fun x =>
        { x with meridian := m + 1, arrives := x.arrives.filter (fun a => decide (m.toNat < a.2.2)), gathered := false, released := false,
                 run := x.run.map fun r => { r with digest := if 1 ≤ level then r.digest + d else r.digest, loading := false } }
      ((s.applyLevel p 0).sendDigest p m.toNat d).afterBoundary p
  | _, _ => s

/-! ## Coming to rest (R252) -/

/-- A tile's units have stopped as R252 asks: no issue, drain, spill combination or flit is left, no chain leg that has started. Boundary flits
that wait for a sequencer that has not started are given up: their senders restart PRIME (R168; log 134). -/
def TileState.quiet (x : TileState) : Bool :=
  x.array.issues.isEmpty && x.array.drains.isEmpty && x.array.spillBuf.isNone && x.vc1.isEmpty &&
    (x.su.isEmpty || decide (x.seq.phase = .idle ∨ x.seq.phase = .halt)) &&
    x.chains.all fun c => !c.started

/-- A chain instruction is withdrawn (R109): the tile stands again at the boundary before it. Where later instructions have left the stream
behind it, the tile keeps its words for the resume (DEDUCED, log 118). -/
def TileState.withdraw (e : ChainEntry) (x : TileState) : TileState :=
  if decide (e.pos = x.pos) && !e.energy && decide (e.iseq + 1 = x.iseq ∨ e.iseq = x.iseq) then { x with pos := x.pos - 1, iseq := e.iseq }
  else { x with withdrawn := { e with ready := false, started := false, got := [] } :: x.withdrawn }

/-- What stopping leaves of a tile: descriptors PREEMPTED with their records, chain instructions withdrawn newest first, Riffle words
dropped (R109, R128, R252). -/
def TileState.rested (x : TileState) : TileState :=
  let y : TileState := x.chains.foldr TileState.withdraw { x with chains := [], tokens := [], riffleBuf := [], su := [] }
  y.ferry.slots.foldl (fun (z : TileState) (e : Nat × Slot) =>
    if e.2.phase = FerryPhase.run then z.setSlot e.1 { e.2 with phase := .preempted, locked := false } true else z) y

def State.restTiles (s : State) (p : Nat) : State := s.updTiles (s.tilesOf p) TileState.rested

/-- The end of a frozen job: its image is kept, and the host is told of a divergence (R280). -/
def State.finishFreeze (s : State) (p : Nat) : State :=
  match s.running p with
  | some (r, _) =>
    let step := r.frozen.getD 0
    let s := s.updPart p fun x => { x with image := some (s.image p 0) }
    let s := if r.diverged then (s.event 0 2 p (beBytes 8 step)).event p 2 p (beBytes 8 step) else s
    s.endJob p .aborted
  | none => s

/-- A JOB_CANCEL that waited has its effect (R342, R350). -/
def State.finishCancel (s : State) (p : Nat) : State :=
  match s.part p with
  | some x =>
    match x.cancelTag with
    | some tag =>
      ((s.endJob p .aborted).updPart p fun x => { x with cancelTag := none }).reply { box := p, opcode := 0x43, tag := tag } .ok []
    | none => s
  | none => s

/-- What follows once a partition is at rest (R268, R280, R342, R347, R348). -/
def State.finishRest (s : State) (p : Nat) (tag : BitVec 32) (why : Nat) (pages : Bool) : State :=
  let setHold := fun (s : State) (h : Hold) => s.updPart p fun x => { x with hold := h }
  let frozen := match s.running p with
    | some (r, _) => r.frozen.isSome
    | none => false
  let s := if frozen then s.finishFreeze p else s
  match why with
  | 0 =>
    let s := (s.updRun p fun r => { r with preempts := r.preempts + 1 }).finishCancel p
    (setHold s .rest).reply { box := p, opcode := 0x52, tag := tag } .ok []
  | 1 =>
    let img := s.image p 0
    (setHold (s.finishCancel p) .rest).sendSave { box := p, opcode := 0x50, tag := tag } (bnat pages) img
  | 2 | 3 =>
    let s := s.goOn p
    s.sendSave { box := p, opcode := 0x50, tag := tag } (bnat pages) (s.image p 1)
  | 5 => setHold (s.finishCancel p) .free
  | 6 =>
    let s := s.updPart p fun x => { x with image := if x.run.isSome then some (s.image p 0) else x.image }
    setHold ((s.updRun p fun r => { r with stopped := true }).endJob p .ok) .free
  | _ => setHold s .free

/-- The partition's units can be brought to rest now: every tile is quiet, and a PORTABLE save has met its boundary. -/
def State.restReady (s : State) (p why : Nat) : Bool :=
  match s.running p with
  | none => true
  | some _ =>
    let busy := fun (e : Nat × Slot) => decide (e.2.phase = .run ∨ e.2.phase = .faultWait)
    decide (why ≠ 2) && (s.tilesOf p).all (fun t => (s.tile t).quiet && (decide (why ≠ 3) || !((s.tile t).ferry.slots.any busy))) &&
      s.mesh.flight.all fun f => decide (f.flit.part ≠ p)

/-- AT_REST (R252). -/
def State.atRest (s : State) (p : Nat) : State :=
  match s.part p with
  | some x =>
    match x.hold with
    | .stopping tag why pages =>
      if s.restReady p why then (if why = 3 then s else s.restTiles p).finishRest p tag why pages else s
    | .rest =>
      match x.run with
      | some r => if r.frozen.isSome then s.finishFreeze p else s
      | none => s
    | .free => s
  | none => s

end Sys2Proof.Machine
end

