-- ==== Sys2Proof/Machine/Jobs.lean ====
section
/-! DEFINITION. Jobs and checkpoints: JOB_SUBMIT, start, completion, cancellation, PREEMPT, RESUME, CKPT_SAVE, CKPT_RESTORE,
JOURNAL_QUERY (R252, R267, R278, R289, R337-R350, R360). -/

namespace Sys2Proof.Machine

/-! ## Frames under MORE -/

/-- Bytes of a request so far, its last frame included; none while MORE frames are to come, and the state that keeps them (R319,
R337). -/
def State.gather (s : State) (r : Req) (bs : List Byte) : Option (List Byte) × State :=
  let got := ((s.box r.box).partials.find? fun q => decide (q.tag = r.tag ∧ q.opcode = r.opcode))
  let all := (match got with
    | some q => q.bytes
    | none => []) ++ bs
  let s := s.updBox r.box fun b =>
    { b with partials := (b.partials.filter fun q => !(decide (q.tag = r.tag ∧ q.opcode = r.opcode))) ++
        if bit r.flags 5 then [⟨r.tag, r.opcode, all⟩] else [] }
  (if bit r.flags 5 then none else some all, s)

/-! ## JOB_SUBMIT -/

/-- The payload of Table 12-10. -/
structure Submit where
  key : Nat
  start : Nat
  stop : Nat
  seed : Nat
  flags : Nat
  panels : Nat
  mpj : Nat
  image : List Byte
  inPlace : List (Nat × Nat)
  list : List Nat
  deriving DecidableEq, Repr

/-- 16-bit numbers in network order. -/
def beHalves (bs : List Byte) : List Nat := (List.range (bs.length / 2)).map fun i => field bs (2 * i) 2

/-- The payload read; a single-panel job may leave the list out, which then names this panel (DEDUCED, log 50). -/
def Submit.of (b : List Byte) (panel : Nat) : Submit :=
  let n := field b 41 1
  let rest := b.drop (96 + 16 * n)
  { key := field b 0 8, start := field b 8 8, stop := field b 16 8, seed := field b 24 16, flags := field b 40 1, panels := field b 42 2,
    mpj := field b 44 4, image := (b.drop 48).take 32,
    inPlace := (List.range n).map fun i => (field b (96 + 16 * i) 8, field b (104 + 16 * i) 8),
    list := if rest.isEmpty ∧ !(bit (field b 40 1) 4) then [panel] else beHalves rest }

/-- A list names something twice. -/
def hasTwice : List Nat → Bool
  | [] => false
  | a :: t => t.contains a || hasTwice t

/-- ST_BAD_FORMAT of R338, and a CHAIN mode that is not the job's (R99). -/
def Submit.bad (j : Submit) (b : List Byte) (panel : Nat) : Bool :=
  let f := j.flags
  let n := field b 41 1
  let multi := bit f 4
  decide (b.length < 96) || decide (32 ≤ f) || !(zeroBytes b 80 16) || decide (j.key = 0) || (bit f 0 && decide (j.seed ≠ 0)) || (bit f 0 && multi) ||
    decide (32 < n) || (!(bit f 3) && decide (n ≠ 0)) || (j.inPlace.any fun q => decide (q.1 % 2 ^ 21 ≠ 0 ∨ q.2 % 2 ^ 21 ≠ 0)) ||
    (!multi && decide (j.panels ≠ 0 ∨ j.mpj ≠ 0)) || decide (j.list.length ≠ j.panels + 1) || !(j.list.contains panel) || hasTwice j.list

/-- MODE of a CHAIN instruction of the program is not the job's reduction mode (R99). -/
def Program.chainMismatch (g : Program) (canon : Bool) : Bool :=
  g.streams.any fun e =>
    match parseStream (e.2.length + 1) 0 e.2 with
    | some ins => ins.any fun i => decide (i.opc = 0x05) &&
        decide ((ChainWords.ofWords (i.w 0) (i.w 1) (i.w 2)).mode ≠ bnat canon)
    | none => false

/-- The barrier port of a share is native to the partition (R307). -/
def State.barrierNative (s : State) (p : Nat) (x : Part) : Bool :=
  match x.share with
  | q :: _ =>
    let r := portRouter q.1
    decide (s.partAt r.1 r.2 = p)
  | [] => false

/-- ST_REFUSED of R338 and R353. -/
def State.submitRefused (s : State) (p : Nat) (x : Part) (j : Submit) : Bool :=
  match x.program with
  | none => true
  | some g =>
    decide (fitBytes 32 g.digest ≠ fitBytes 32 j.image) ||
      (bit j.flags 4 && (!(s.barrierNative p x) || decide (g.panels ≠ j.panels) || !(bit g.flags 2) ||
        !((g.peers ++ g.groups.flatten ++ g.regions.flatMap (·.senders)).all fun k => j.list.contains k)))

/-- JOB_ACCEPTED after STATUS (R339). -/
def acceptedBody (id : BitVec 32) (dup : Bool) (seed : Nat) : List Byte :=
  beBytes 4 id.toNat ++ beBytes 1 (bnat dup) ++ [0, 0, 0] ++ beBytes 16 seed

/-- The job a SUBMIT_KEY already stands for: in the journal or among the retired (R339). -/
def Journal.duplicate (j : Journal) (p key : Nat) : Option (BitVec 32 × Nat) :=
  match j.jobs.find? fun e => decide (e.part = p ∧ e.key = key) with
  | some e => some (e.id, e.seed)
  | none => (j.retired.find? fun e => decide (e.1 = p ∧ e.2.1 = key)).map fun e => (e.2.2.1, e.2.2.2)

/-- The job is journaled, then answered (R339). -/
def State.acceptJob (s : State) (r : Req) (j : Submit) (seed : Nat) : State :=
  match s.part r.box, s.rect r.box with
  | some x, some q =>
    let id := s.journal.nextId
    let e : Job := { id := id, part := r.box, state := 0, flags := j.flags, key := j.key,
                     start := BitVec.ofNat 64 j.start, stop := BitVec.ofNat 64 j.stop, seed := seed, image := j.image,
                     inPlace := j.inPlace, panels := j.panels, mpj := BitVec.ofNat 32 j.mpj, panelList := j.list, rect := q,
                     pflags := x.flags, share := x.share }
    let s := { s with journal := { s.journal with jobs := s.journal.jobs ++ [e], nextId := id + 1 } }
    s.reply r .ok (acceptedBody id false seed)
  | _, _ => s.reply r .notReady []

/-- A complete JOB_SUBMIT (R337-R339). -/
def State.submitAll (s : State) (r : Req) (b : List Byte) : State :=
  let r := { r with opcode := 0x41 }
  match s.part r.box with
  | none => s.reply r .notReady []
  | some x =>
    let j := Submit.of b s.panel
    match s.journal.duplicate r.box (field b 0 8) with
    | some d => s.reply r .ok (acceptedBody d.1 true d.2)
    | none =>
      if j.bad b s.panel then s.reply r .badFormat []
      else if s.submitRefused r.box x j then s.reply r .refused []
      else if (x.program.map fun g => g.chainMismatch (bit j.flags 1)).getD false then s.reply r .badFormat []
      else if bit j.flags 4 && !((s.box r.box).agreed.getLsbD 19) then s.reply r .noFeature []
      else if 64 ≤ (s.journal.jobs.filter fun e => decide (e.part = r.box)).length ∨ 0xFFFFFFFE ≤ s.journal.nextId.toNat then
        s.reply r .limit []
      else if bit j.flags 0 then
        s.withEntropy { r with opcode := 0x40, payload := b, flags := r.flags % 32 } fun s =>
          let d := s.drawPlain 16
          d.2.acceptJob r j (beNat d.1)
      else s.acceptJob r j j.seed

/-- JOB_SUBMIT, parsed after its last frame (R337); at most 4,096 + 131,072 bytes. -/
def State.jobSubmitReq (r : Req) (s : State) : State :=
  match s.gather r r.payload with
  | (none, s) => s
  | (some b, s) => if 4096 + 131072 < b.length then s.reply { r with opcode := 0x41 } .badFormat [] else s.submitAll r b

def execJobSubmit (f : VFrame) (s : State) : Host.Outcome State Fault Refusal := .next (finish s (s.vorlaIn 0x40 f State.jobSubmitReq))

/-! ## Connections at job start -/

/-- The connection is open (R289). -/
def Conn.isOpen (k : Conn) : Bool := k.openAcked && k.openGot

/-- Every connection of the running job exists and is open (R289). -/
def State.connsReady (s : State) (p : Nat) : Bool :=
  match s.part p with
  | none => true
  | some x =>
    let peers := match s.running p, x.program with
      | some (_, j), some g => if bit j.flags 4 then g.peers else []
      | _, _ => []
    let conns := s.trib.conns.filter fun k => decide (k.part = p) && !k.leaving
    conns.all Conn.isOpen && peers.all fun n => conns.any fun k => decide (k.peer = n)

/-- The running job may begin its instructions: its connections are open and its pair has started (R278, R289). -/
def State.checkOpen (s : State) (p : Nat) : State :=
  let paired := match s.pairOf p with
    | some pr => pr.started
    | none => true
  if s.connsReady p && paired then s.updRun p fun r => { r with open_ := true } else s

/-- OPEN payload (R289). -/
def State.openPayload (s : State) (mpj pos win k : Nat) : List Byte :=
  beBytes 4 s.bootEpoch ++ beBytes 4 mpj ++ beBytes 4 pos ++ beBytes 2 win ++ beBytes 1 k ++ List.replicate 17 0

/-- A connection made, its OPEN sent (R289, R310). One of the same number that an earlier job has left gives way to it. -/
def State.openOne (s : State) (p peer peerPart ix port mpj win k pos : Nat) (secret : List Byte) : State :=
  let c : Conn := { part := p, peer := peer, peerPart := peerPart, ix := ix, port := port, mpj := BitVec.ofNat 32 mpj, win := win,
                    share := k, secret := secret, rate := (portRate port : Nat), target := (portRate port : Nat),
                    line := (portRate port : Nat) }
  let s := { s with trib := { s.trib with conns := (s.trib.conns.filter fun (k : Conn) => !(k.is p peer ix)) ++ [c] } }
  s.tribSend p peer ix 0x07 0 0 (s.openPayload mpj pos win k)

/-- The highest MPJ_ID a partition has opened on a link session; none before the first (R412). -/
def State.maxMpj (s : State) (p peer : Nat) : Option Nat :=
  match s.trust.links.find peer with
  | some l => l.maxMpj.find p
  | none => none

/-- The number is spent on the link session (R412). -/
def State.spendMpj (s : State) (p peer mpj : Nat) : State :=
  { s with trust := { s.trust with links := s.trust.links.update peer fun l => { l with maxMpj := l.maxMpj.set p mpj } } }

/-- K connections to a peer panel that has a link session (R289); without one no OPEN goes out. -/
def State.openPeer (s : State) (p peer peerPart k mpj win pos : Nat) (share : List (Nat × Nat)) : State :=
  match s.trust.links.find peer with
  | none => s
  | some l =>
    let s := (share.take k).zipIdx.foldl (fun s q => s.openOne p peer peerPart q.2 q.1.1 mpj win k pos l.secret) s
    s.spendMpj p peer mpj

/-- Window entries of the connections that exist, those that are being left among them (R290). -/
def TribState.windows (t : TribState) : Nat := (t.conns.map Conn.win).sum

/-- The connections of a job: its peers' (R289), and connection 0 to the panel of its pair (R283; log 46). ST_REFUSED under R412, ST_LIMIT
under R290. -/
def State.openJob (s : State) (p : Nat) (x : Part) (g : Program) (j : Job) : Option Status × State :=
  let peers := if bit j.flags 4 then g.peers else []
  let k := x.share.length
  let pos := (j.panelList.findIdx? fun n => decide (n = s.panel)).getD 0
  let spent := fun (peer mpj : Nat) => match s.maxMpj p peer with
    | some m => decide (mpj ≤ m)
    | none => false
  let pair := match x.pairing with
    | some pr => if j.rerun ∨ pr.peerPanel = s.panel ∨ pr.peerPanel ∈ peers then none else some pr
    | none => none
  let pairMpj := fun (pr : Pairing) => (pr.pairId.toNat + pr.jobs) % 2 ^ 32
  if (peers.any fun n => spent n j.mpj.toNat) || (match pair with
      | some pr => spent pr.peerPanel (pairMpj pr)
      | none => false) then (some .refused, s)
  else if 131072 < s.trib.windows + peers.length * k * g.win + (if pair.isSome then 16 else 0) then (some .limit, s)
  else
    let s := peers.foldl (fun s n => s.openPeer p n p k j.mpj.toNat g.win pos x.share) s
    let s := match pair with
      | some pr => s.openPeer p pr.peerPanel pr.peerPart 1 (pairMpj pr) 16 0 x.share
      | none => s
    (none, s)

/-! ## START of a pair -/

/-- The peer's START against the local job (R278): equal fields let the job begin, a difference ends it. -/
def State.compareStart (s : State) (p : Nat) (payload : List Byte) : State :=
  match s.pairOf p, s.running p with
  | some pr, some (_, j) =>
    if payload = s.startPayload p pr j then (s.updPair p fun q => { q with started := true, early := none }).checkOpen p
    else ((s.raise { det := 0x1003, part := p }).updPair p fun q => { q with early := none }).endJob p .refused
  | _, _ => s

/-- START sent, and a START that came early compared (R278). -/
def State.startPair (s : State) (p : Nat) : State :=
  match s.pairOf p, s.running p with
  | some pr, some (_, j) =>
    let s := s.lsSend p pr (s.startPayload p pr j)
    let s := s.updPair p fun q => { q with startSent := true, jobs := q.jobs + 1 }
    match pr.early with
    | some b => s.compareStart p b
    | none => s
  | _, _ => s

/-! ## JOB_START -/

/-- IN_PLACE ranges copied into frames outside the partition (R343). -/
def State.copyRanges (s : State) (p : Nat) (x : Part) (j : Job) : Option (List (Nat × List Byte) × List Nat × State) :=
  let n := j.inPlace.foldl (fun n q => n + q.2 / 2 ^ 21) 0
  match State.takeFrames false p n 0 s with
  | none => none
  | some f => some (j.inPlace.map fun q => (q.1, s.readVa x q.1 q.2), f.1, f.2)

/-- A PRIME in progress is to be restarted (R168). -/
def TileState.primeCut (x : TileState) : TileState := { x with seq := { x.seq with again := decide (x.seq.phase = .prime) } }

/-- A tile at the start of a job (R54, R116, R510): a fresh one, or the restored context. -/
def TileState.startJob (seed : Nat) (keep : Bool) (x : TileState) : TileState :=
  let y := if keep then { x with halted := false, riffleStop := false }.primeCut else x.fresh
  { y with seedHi := BitVec.ofNat 64 (seed / 2 ^ 64), seedLo := BitVec.ofNat 64 seed }

/-- The job begins (R116, R267, R273, R340). With a restored context it goes on at its MERIDIAN, and stops at once where that is its stop
step (R268). -/
def State.beginJob (s : State) (p : Nat) (x : Part) (g : Program) (j : Job) (r : RunJob) : State :=
  match s.copyRanges p x j with
  | none => s.endQueued j .limit
  | some c =>
    let s := c.2.2
    let keep := x.restored.isSome
    let s := s.updTiles (s.tilesOf p) (TileState.startJob j.seed keep)
    let paired := x.pairing.isSome && !j.rerun
    let pr := x.pairing.getD { peerPanel := 0, peerPart := 0, pairId := 0, lag := 0, timeout := 0 }
    let run : RunJob := { r with copies := c.1, copyFrames := c.2.1, censusStart := s.census p, lockstep := paired, digestOn := true,
                                 open_ := false, lsPeerPanel := if paired then pr.peerPanel else 0,
                                 lsPeerPart := if paired then pr.peerPart else 0 }
    let run := match x.restored with
      | some k => run.restore k
      | none => run
    let stops := keep && decide (x.meridian = j.stop ∧ j.stop ≠ BitVec.allOnes 64)
    let s := s.updPart p fun x =>
      { x with run := some run, again := none, meridian := if keep then x.meridian else j.start, restored := none,
               hold := if stops then .stopping 0 6 false else x.hold,
               pairing := x.pairing.map fun q => { q with own := [], peers := [], compared := none, started := false, startSent := false } }
    let s := { s with journal := s.journal.upd j.id fun e => { e with state := 1 } }
    let s := s.applyLevel p (bnat (bit j.flags 2))
    let o := s.openJob p x g j
    match o.1 with
    | some st => o.2.endJob p st
    | none => (o.2.startPair p).checkOpen p

/-- The next job a partition may start: the one re-queued at the head (R485), else the first of the queue (R340). -/
def State.nextJob (s : State) (p : Nat) (x : Part) : Option (Job × RunJob) :=
  match x.again with
  | some r => (s.journal.find r.id).map fun j => (j, r)
  | none => (s.journal.queue p).head?.map fun j => (j, { id := j.id })

/-- A connection of an earlier job of the partition still has frames that are not acknowledged: the next job waits (R291; log 138). -/
def State.leavesOpen (s : State) (p : Nat) : Bool :=
  s.trib.conns.any fun k => decide (k.part = p) && k.leaving && !(k.unacked.isEmpty && k.waiting.isEmpty)

/-- A partition may start a job (R340, R344, R383, R452, R487, R491). -/
def State.mayStart (s : State) (p : Nat) (x : Part) : Bool :=
  decide (s.firm.mode = .run) && decide (s.firm.phase = .idle) && !s.power.inReset && !s.power.deepIdle && x.run.isNone &&
    decide (x.hold = .free) && !x.awaitRestore && !(s.leavesOpen p) && (s.power.emergency || !(s.err.deferred.any fun d => d.parts.contains p)) && !((s.box p).partials.any fun q => decide (q.opcode = 0x51)) &&
    match s.rect p with
    | some q => !(s.rectDown q)
    | none => false

/-- JOB_START (R340). -/
def State.startNext (s : State) (p : Nat) : State :=
  match s.part p with
  | none => s
  | some x =>
    if !(s.mayStart p x) then s
    else
      match s.nextJob p x, x.program with
      | some (j, r), some g =>
        if fitBytes 32 g.digest ≠ fitBytes 32 j.image then s.endQueued j .refused
        else s.beginJob p x g j r
      | some (j, _), none => s.endQueued j .refused
      | none, _ => s

def execJobStart (part : Nat) (s : State) : Host.Outcome State Fault Refusal := .next (finish s (s.startNext part))

/-! ## JOB_DONE -/

/-- Instructions of the partition's job may be dispatched (R252, R278, R289). -/
def Part.dispatching (x : Part) : Bool :=
  (match x.run with
   | some r => r.open_
   | none => false) &&
    match x.hold with
    | .free => true
    | .stopping _ why _ => decide (why = 2 ∨ why = 3)
    | .rest => false

/-- A tile has dispatched END and nothing it started is left (R360). -/
def TileState.finished (x : TileState) : Bool :=
  x.ended && x.array.issues.isEmpty && x.array.drains.isEmpty && x.array.spillBuf.isNone && x.chains.isEmpty && x.vc1.isEmpty && x.su.isEmpty &&
    decide (x.seq.phase = .idle ∨ x.seq.phase = .halt) && x.bar.issued.isNone &&
    x.ferry.slots.all fun e => decide (e.2.phase = .done ∨ e.2.phase = .idle)

/-- JOB_DONE (R341, R360). -/
def State.jobDone (s : State) (p : Nat) : State :=
  match s.part p with
  | none => s
  | some x =>
    match x.run with
    | none => s
    | some r =>
      if x.dispatching && (s.tilesOf p).all fun t => (s.tile t).finished then
        s.endJob p (if r.peerLost then .peerLost else if r.shapeChanged then .shapeChanged else .ok)
      else s

def execJobDone (part : Nat) (s : State) : Host.Outcome State Fault Refusal := .next (finish s (s.jobDone part))

/-! ## JOB_CANCEL, PREEMPT, RESUME -/

/-- A job that AWAIT_RESTORE held is gone: the partition waits no longer once none is pending (R344). -/
def State.clearAwait (s : State) (p : Nat) : State :=
  if (s.pendingJobs p).isEmpty then s.updPart p fun x => { x with awaitRestore := false } else s

/-- JOB_CANCEL (R342, R350): a queued job ends at once, the running job when it has come to rest. -/
def State.jobCancelReq (r : Req) (s : State) : State :=
  let p := r.box
  let id := BitVec.ofNat 32 (field r.payload 0 4)
  if r.payload.length ≠ 4 then s.reply r .badFormat []
  else
    match s.part p, s.journal.find id with
    | some x, some j =>
      if j.part ≠ p then s.reply r .refused []
      else if j.state = 2 then s.reply r .ok []
      else if j.state = 0 ∨ j.state = 3 then ((s.endQueued j .aborted).clearAwait p).reply r .ok []
      else if x.run.isNone then (s.endQueued j .aborted).reply r .ok []
      else
        match x.hold with
        | .rest => (s.endJob p .aborted).reply r .ok []
        | .free => s.updPart p fun x => { x with cancelTag := some r.tag, hold := .stopping r.tag 5 false }
        | .stopping tag why _ =>
          if x.cancelTag.isSome then s.reply r .busy []
          else if why = 2 ∨ why = 3 then
            (s.reply { box := p, opcode := 0x50, tag := tag } .aborted []).updPart p fun x =>
              { x with cancelTag := some r.tag, hold := .stopping r.tag 5 false }
          else if why = 4 ∨ why = 6 then s.updPart p fun x => { x with cancelTag := some r.tag, hold := .stopping r.tag 5 false }
          else s.updPart p fun x => { x with cancelTag := some r.tag }
    | _, _ => s.reply r .refused []

def execJobCancel (f : VFrame) (s : State) : Host.Outcome State Fault Refusal := .next (finish s (s.vorlaIn 0x43 f State.jobCancelReq))

/-- PREEMPT, a CKPT_SAVE or a CKPT_RESTORE stream is in progress (R350). -/
def State.inProgress (s : State) (p : Nat) (x : Part) : Bool :=
  (match x.hold with
   | .stopping _ _ _ => true
   | _ => false) || (s.box p).partials.any fun q => decide (q.opcode = 0x51)

/-- HOLD or RESUME to the peer of a paired partition, whether or not a job runs; a job that was re-run runs unpaired (R281). -/
def State.tellPeer (s : State) (p kind : Nat) : State :=
  match s.part p with
  | some x =>
    match x.pairing, x.run with
    | some pr, some r => if r.lockstep then s.lsSend p pr (lsPayload pr.pairId kind x.meridian.toNat 0 []) else s
    | some pr, none => s.lsSend p pr (lsPayload pr.pairId kind x.meridian.toNat 0 [])
    | none, _ => s
  | none => s

/-- PREEMPT (R347). -/
def State.preemptReq (r : Req) (s : State) : State :=
  let p := r.box
  match s.part p with
  | none => s.reply r .notReady []
  | some x =>
    if r.payload ≠ [] then s.reply r .badFormat []
    else if s.inProgress p x then s.reply r .busy []
    else if x.hold = .rest then s.reply r .ok []
    else if x.run.isNone then ((s.updPart p fun x => { x with hold := .rest }).tellPeer p 3).reply r .ok []
    else (s.updPart p fun x => { x with hold := .stopping r.tag 0 false }).tellPeer p 3

def execPreempt (f : VFrame) (s : State) : Host.Outcome State Fault Refusal := .next (finish s (s.vorlaIn 0x52 f State.preemptReq))

def execAtRest (part : Nat) (s : State) : Host.Outcome State Fault Refusal := .next (finish s (s.atRest part))

/-- A tile goes on: a PRIME restarts, descriptors restart from ELEM_DONE, the withdrawn chain instructions that are not dispatched from the stream again
re-enter the queue (R109, R168, R251, R253; log 118). -/
def TileState.resumed (x : TileState) : TileState :=
  x.ferry.slots.foldl (fun (z : TileState) (e : Nat × Slot) =>
    if e.2.phase = FerryPhase.preempted ∨ e.2.phase = FerryPhase.faultWait then
      z.setSlot e.1 { e.2 with phase := .run, faultCode := 0, faultVa := 0, fetched := 0 } true
    else z) { x with chains := x.chains ++ x.withdrawn, withdrawn := [] }.primeCut

/-- RESUME (R347). -/
def State.resumeReq (r : Req) (s : State) : State :=
  let p := r.box
  match s.part p with
  | none => s.reply r .notReady []
  | some x =>
    if r.payload ≠ [] then s.reply r .badFormat []
    else if s.inProgress p x then s.reply r .busy []
    else if x.hold ≠ .rest then s.reply r .refused []
    else
      let s := if x.run.isSome then s.updTiles (s.tilesOf p) TileState.resumed else s
      ((s.goOn p).tellPeer p 4).reply r .ok []

def execResumePart (f : VFrame) (s : State) : Host.Outcome State Fault Refusal := .next (finish s (s.vorlaIn 0x53 f State.resumeReq))

/-! ## Checkpoints -/

/-- The program is compiled shape-portable (R255). -/
def Part.portable (x : Part) : Bool :=
  match x.program with
  | some g => bit g.flags 0
  | none => false

/-- CKPT_SAVE (R255, R268, R280, R348, R350, R419). -/
def State.ckptSaveReq (r : Req) (s : State) : State :=
  let p := r.box
  let form := field r.payload 0 1
  let flags := field r.payload 1 1
  let pages := bit flags 0
  match s.part p with
  | none => s.reply r .notReady []
  | some x =>
    if r.payload.length ≠ 2 ∨ 1 < form ∨ 1 < flags then s.reply r .badFormat []
    else if x.sealed_.isSome then s.reply r .refused []
    else if s.inProgress p x then s.reply r .busy []
    else if form = 1 then
      if !x.portable ∨ (x.run.isSome ∧ x.hold = .rest) then s.reply r .refused []
      else if x.run.isNone then s.sendSave r flags (s.image p 1)
      else s.updPart p fun x => { x with hold := .stopping r.tag 2 pages }
    else if x.run.isSome ∧ x.hold = .free then
      (s.updPart p fun x => { x with hold := .stopping r.tag 1 pages }).tellPeer p 3
    else
      match x.image with
      | some img =>
        if x.run.isNone then ((s.updPart p fun x => { x with image := none, hold := .rest })).sendSave r flags img
        else s.sendSave r flags (s.image p 0)
      | none =>
        let t := s.updPart p fun x => { x with hold := .rest }
        (if x.hold = .rest then t else t.tellPeer p 3).sendSave r flags (s.image p 0)

def execCkptSave (f : VFrame) (s : State) : Host.Outcome State Fault Refusal := .next (finish s (s.vorlaIn 0x50 f State.ckptSaveReq))

/-- Data of one CKPT_RESTORE frame, FLAGS kept in front of the first (R348, R349). -/
def State.restoreData (s : State) (r : Req) (first : Bool) : Option (List Byte) :=
  if first then (s.openData r (r.payload.drop 1)).map fun d => r.payload.take 1 ++ d else s.openData r (r.payload.drop 12)

/-- A whole stream decided and applied (R257, R281, R344, R349, R420). -/
def State.restoreAll (s : State) (r : Req) (b : List Byte) : State :=
  let p := r.box
  let force := field b 0 1
  let stream := b.drop 1
  match s.part p with
  | none => s.reply r .notReady []
  | some x =>
    match readStream stream with
    | none => s.reply r .badFormat []
    | some v =>
      if 1 < force then s.reply r .badFormat []
      else
        let n := stream.length - 16
        if stream.drop n ≠ s.ckptSeal p (stream.take n) then s.reply r .auth []
        else
          let st := s.restoreStatus p x v (decide (force = 1))
          if st = .ok ∨ st = .shapeChanged then
            if !(s.sectionsOk p v) then s.reply r .badFormat [] else (s.restoreApply p v st (decide (force = 1))).reply r st [] else s.reply r st []

/-- CKPT_RESTORE (R349, R350). -/
def State.ckptRestoreReq (r : Req) (s : State) : State :=
  let p := r.box
  match s.part p with
  | none => s.reply r .notReady []
  | some x =>
    let mine := (s.box p).partials.any fun q => decide (q.tag = r.tag ∧ q.opcode = 0x51)
    let drop := s.updBox p fun b => { b with partials := b.partials.filter fun q => !(decide (q.tag = r.tag ∧ q.opcode = 0x51)) }
    if !mine ∧ (s.inProgress p x ∨ (x.run.isSome ∧ x.hold ≠ .rest)) then s.reply r .busy []
    else if mine ∧ !(zeroBytes r.payload 2 2) then drop.reply r .badFormat []
    else
      match s.restoreData r (!mine) with
      | none => drop.dataFail r
      | some d =>
        match s.gather r d with
        | (none, s) => s
        | (some b, s) => s.restoreAll r b

def execCkptRestore (f : VFrame) (s : State) : Host.Outcome State Fault Refusal := .next (finish s (s.vorlaIn 0x51 f State.ckptRestoreReq))

/-! ## JOURNAL_QUERY -/

/-- JOURNAL_QUERY (R346, R488): entries in JOB_ID order. A partition's own mailbox names that partition. -/
def State.journalReq (r : Req) (s : State) : State :=
  let p := field r.payload 0 1
  if r.payload.length ≠ 1 ∨ 64 < p then s.reply r .badFormat []
  else if r.box ≠ 0 ∧ p ≠ r.box then s.reply r .refused []
  else
    let s := s.journalRead
    let es := s.journal.jobs.filter fun e => decide (p = 0 ∨ e.part = p)
    s.replyStream r .ok false 0 (beBytes 4 es.length ++ es.flatMap fun e =>
      beBytes 4 e.id.toNat ++ beBytes 1 e.part ++ beBytes 1 e.state ++ beBytes 1 e.flags ++ [0] ++ beBytes 8 e.key)

def execJournalQuery (f : VFrame) (s : State) : Host.Outcome State Fault Refusal := .next (finish s (s.vorlaIn 0x82 f State.journalReq))

end Sys2Proof.Machine
end

