-- ==== Sys2Proof/Machine/Messages.lean ====
section
/-! DEFINITION. Tributary messages: opening a context, sending a message, receiving into contexts, taking a message, the acknowledgement of
a ferry's message, and the loss of a peer (R291, R294-R296, R301-R304, R311-R313, R486). -/

namespace Sys2Proof.Machine

/-! ## Sending -/

/-- A DATA message cut into frames with their headers (R302). -/
def dataFrames (len channel : Nat) : Nat → Nat → List Byte → List (List Byte)
  | 0, _, _ => []
  | n + 1, off, bs =>
    if bs.isEmpty then []
    else (beBytes 4 len ++ beBytes 4 off ++ beBytes 1 channel ++ List.replicate 7 0 ++ bs.take 8176) ::
      dataFrames len channel n (off + 8176) (bs.drop 8176)

/-- Target panels of a PORT address: the peer, or the group's panels (R304). -/
def State.portTargets (s : State) (p a : Nat) : List Nat :=
  if portMcast a then
    match s.part p with
    | some x =>
      match x.program with
      | some g => (g.groups.getD (portPeer a) []).filter fun n => decide (n ≠ s.panel)
      | none => []
    | none => []
  else [portPeer a]

/-- The message as the port engine has it: the ferry has sent it in blocks encrypted under the partition's current generation (R218, R415). -/
def State.portBytes (s : State) (p : Nat) (d : Desc) (m : List Byte) : List Byte :=
  let key := s.memKey p (match s.part p with
    | some x => x.gen
    | none => 0)
  let blocks := portBlocks key (portPeer d.dstAddr) (portChannel d.dstAddr) ((m.length + 255) / 256) 0 m
  (portMessage key (portPeer d.dstAddr) (portChannel d.dstAddr) 0 blocks).take m.length

/-- The message of a DST_SPACE PORT descriptor goes out on every target's connection; without a connection it waits (R301, R304). -/
def State.sendDescriptor (s : State) (p t n : Nat) : State :=
  let sl := (s.tile t).slot n
  let d := sl.desc
  let targets := s.portTargets p d.dstAddr
  let ks := targets.filterMap fun q => s.connFor p q (portChannel d.dstAddr)
  if sl.portSent ∨ ks.length ≠ targets.length then s
  else
    let m := s.sendMessage p t n
    let frames := dataFrames m.1.length (portChannel d.dstAddr) (m.1.length + 1) 0 (s.portBytes p d m.1)
    let s := (s.updTile t fun x => x.flag m.2).setSlot t n { sl with portSent := true, fetched := d.total, msg := m.1 } false
    ks.foldl (fun s k => s.openMsg k 0x01 (if portMcast d.dstAddr then tFlagMcast else 0) (some (t, n)) frames) s

/-- A ferry's message is acknowledged by every target: the descriptor is DONE (R304). -/
def State.portPoll (s : State) (p t n : Nat) : State :=
  let sl := (s.tile t).slot n
  let left := s.trib.conns.any fun k => decide (k.part = p) && k.sending.any fun m => decide (m.ferry = some (t, n))
  if sl.portSent ∧ sl.phase = .run ∧ !left then s.ferryProgress p t n sl.desc.total else s

/-! ## Receiving -/

/-- Parts cover a message from its first byte to its last. -/
def partsCover : Nat → Nat → Tab (List Byte) → Bool
  | pos, total, [] => decide (pos = total)
  | pos, total, e :: t => decide (e.1 = pos) && partsCover (pos + e.2.length) total t

/-- A frame's bytes at their offset; the first copy stands. -/
def RxMsg.put (m : RxMsg) (off : Nat) (bs : List Byte) (total : Option Nat) : RxMsg :=
  let parts := if m.parts.has off then m.parts else m.parts.set off bs
  let total := match m.total with
    | some n => some n
    | none => total
  { m with parts := parts, total := total, whole := match total with
      | some n => partsCover 0 n parts
      | none => false }

/-- The bytes of a whole message. -/
def RxMsg.bytes (m : RxMsg) : List Byte := m.parts.flatMap (·.2)

/-- The horizon moves past complete messages (R296). -/
def Conn.moveHorizon : Nat → Conn → Conn
  | 0, k => k
  | n + 1, k =>
    match k.rx.find k.horizon with
    | some m =>
      if m.complete then
        Conn.moveHorizon n { k with rx := k.rx.erase k.horizon, horizon := (k.horizon + 1) % 2 ^ 24, ackDue := max 1 k.ackDue }
      else k
    | none => k

/-- A message put back into its connection, and the horizon moved. -/
def Conn.setRx (k : Conn) (serial : Nat) (m : RxMsg) : Conn :=
  let k : Conn := { k with rx := k.rx.set serial m }
  k.moveHorizon k.rx.length

/-- The lowest-serial message of a channel that is not taken: none while a serial before it has not shown its channel (R303). -/
def Conn.nextOn (k : Conn) (channel : Nat) : Nat → Nat → Option (Nat × RxMsg)
  | 0, _ => none
  | n + 1, serial =>
    match k.rx.find serial with
    | none => none
    | some m =>
      if m.type = 1 ∧ m.channel = channel ∧ !m.complete then some (serial, m) else k.nextOn channel n ((serial + 1) % 2 ^ 24)

/-- A SRC_SPACE PORT descriptor takes its message once every frame is written (R303). A length that differs stops it. -/
def State.takeMessage (s : State) (p t n : Nat) : State :=
  let sl := (s.tile t).slot n
  let d := sl.desc
  if sl.portDone ∨ sl.phase ≠ .run then s
  else
    match s.connFor p (portPeer d.srcAddr) (portChannel d.srcAddr) with
    | none => s
    | some k =>
      match k.nextOn (portChannel d.srcAddr) (k.rx.length + 1) k.horizon with
      | none => s
      | some (serial, m) =>
        if !m.whole then s
        else if m.bytes.length ≠ d.recvBytes then
          (s.raise { det := 0x0A07, loc := portLoc k.port, part := p }).ferryFault p t n 3 0 .refused
        else
          let s := s.updConn p k.peer k.ix fun c => c.setRx serial { m with complete := true }
          s.setSlot t n { sl with portDone := true, msg := m.bytes } false

/-! ## Descriptors without an HBM side -/

/-- A descriptor goes as far as it can without HBM: it takes its message, sends its message, or moves every element (R247, R301, R303). What
touches HBM goes on by the requests of R227. -/
def State.ferryGo (s : State) (p t n : Nat) : State :=
  let recv := fun (sl : Slot) => decide (sl.desc.src = 3) && !sl.desc.fill
  let s := if recv ((s.tile t).slot n) then s.takeMessage p t n else s
  let sl := (s.tile t).slot n
  let d := sl.desc
  if sl.phase ≠ .run ∨ (recv sl && !sl.portDone) ∨ (decide (d.src = 1) && !d.fill) ∨ d.dst = 1 then s
  else if d.dst = 3 then (s.sendDescriptor p t n).portPoll p t n
  else s.ferryAll p t n

/-- Descriptors of a partition that wait for a message look again, tile by tile (R303). -/
def State.portArrived (s : State) (p : Nat) : State :=
  (s.tilesOf p).foldl (fun s t =>
    (s.tile t).ferry.slots.foldl (fun s e =>
      let sl := (s.tile t).slot e.1
      if sl.phase = .run ∧ sl.desc.src = 3 ∧ !sl.desc.fill ∧ !sl.portDone then s.ferryGo p t e.1 else s) s) s

/-! ## Loss of a peer (R312) -/

/-- A descriptor sends to a panel or receives from it. -/
def State.descrUses (s : State) (p : Nat) (sl : Slot) (peer : Nat) : Bool :=
  decide (sl.phase = .run ∨ sl.phase = .faultWait) &&
    ((decide (sl.desc.src = 3) && !sl.desc.fill && !sl.portDone && decide (portPeer sl.desc.srcAddr = peer)) ||
      (decide (sl.desc.dst = 3) && (s.portTargets p sl.desc.dstAddr).contains peer))

/-- The inbox holds the whole incoming result of a chain for a step, its frame with LAST included (R103). -/
def Part.inboxFull (x : Part) (c : ChainWords) (step : Nat) : Bool :=
  match x.chainIn.find? fun i => decide (i.id = c.id) && decide (i.step = step) with
  | some i => !i.abort && decide (i.total = some c.packed) && partsCover 0 c.packed i.parts
  | none => false

/-- A chain instruction of a tile takes its result from a panel that has not sent it whole, or sends its own there (R111). -/
def Part.chainUses (x : Part) (peer : Nat) (e : ChainEntry) : Bool :=
  decide (e.words.peer = peer) &&
    (decide (e.words.outDir = 5) || (decide (e.words.inDir = 5) && !e.started && !(x.inboxFull e.words e.step)))

/-- A unit of a tile waits on a panel or sends to it: a chain member, a sequencer that awaits an END (R111, R170). -/
def TileState.waitsOn (x : TileState) (q : Part) (peer : Nat) : Bool :=
  (x.chains.any (q.chainUses peer)) ||
    (x.seq.waitEnd && match x.seq.copy with
      | some c => c.peers.any fun q => decide (q.panel = peer)
      | none => false)

/-- Something in a partition waits on a panel: a unit, a descriptor, the barrier tree, the pair. -/
def State.partWaits (s : State) (p peer : Nat) : Bool :=
  let tiles := s.tilesOf p
  (tiles.any fun t => (s.tile t).waitsOn ((s.part p).getD {}) peer || (s.tile t).ferry.slots.any fun e => s.descrUses p e.2 peer) ||
    (match s.running p with
     | some (r, j) => !r.open_ || (bit j.flags 4 && tiles.any fun t => decide ((s.tile t).bar.issued = some true))
     | none => false) ||
    match s.pairOf p with
    | some pr => decide (pr.peerPanel = peer)
    | none => false

/-- Descriptors of a partition that use a panel stop FAILED (R312, step 2). -/
def State.failDescriptors (s : State) (p peer : Nat) : State :=
  (s.tilesOf p).foldl (fun s t =>
    (s.tile t).ferry.slots.foldl (fun s e =>
      if s.descrUses p e.2 peer then s.setSlot t e.1 { e.2 with phase := .failed } true else s) s) s

/-- A job that has lost a peer ends with ST_PEER_LOST: at once where a unit waits on the panel, else at its next step boundary (R312,
R486). A pair ends with it (R281). -/
def State.peerGone (s : State) (p peer : Nat) : State :=
  let paired := match s.pairOf p with
    | some pr => decide (pr.peerPanel = peer)
    | none => false
  if paired then (s.endJob p .peerLost).unpair p
  else if s.partWaits p peer then s.endJob p .peerLost
  else s.updRun p fun r => { r with peerLost := true }

/-- A panel declared lost (R312): detector 0x0A04 for each job that uses it, its connections closed, its descriptors stopped, EVENT
PEER_LOST. Every pairing with it ends (R277, R281). -/
def State.panelLost (s : State) (peer : Nat) : State :=
  let ps := ((s.trib.conns.filter fun k => decide (k.peer = peer)).map (·.part)).eraseDups
  let s := ps.foldl (fun s p => s.raise { det := 0x0A04, loc := { die := 0x40 }, part := p, syn := leBytes 2 peer }) s
  let waits := ps.map fun p => (p, s.partWaits p peer)
  let s : State := { s with trib := { s.trib with conns := s.trib.conns.filter fun k => decide (k.peer ≠ peer),
                                                  lost := if s.trib.lost.contains peer then s.trib.lost else peer :: s.trib.lost } }
  let s := ps.foldl (fun s p => s.failDescriptors p peer) s
  let s := s.event 0 0x0001 0 (beBytes 2 peer)
  let s := waits.foldl (fun s q =>
    if (s.running q.1).isNone then s
    else if q.2 then
      let t := s.endJob q.1 .peerLost
      match s.pairOf q.1 with
      | some pr => if pr.peerPanel = peer then t.unpair q.1 else t
      | none => t
    else s.updRun q.1 fun r => { r with peerLost := true }) s
  s.parts.foldl (fun s e =>
    match e.2.pairing with
    | some pr =>
      if pr.peerPanel ≠ peer then s
      else
        match s.pairOf e.1 with
        | some _ => (s.endJob e.1 .peerLost).unpair e.1
        | none => s.unpair e.1
    | none => s) s

end Sys2Proof.Machine
end

