-- ==== Sys2Proof/Machine/Issue.lean ====
section
/-! DEFINITION. Dispatch: the conditions under which a tile takes its next instruction, and the instructions of the stream itself: LOOP,
ENDLOOP, END (R252, R354, R358-R360, R449, R510). -/

namespace Sys2Proof.Machine

/-- What a WAIT_FERRY waits for has come (R356). -/
def TileState.waitOver (x : TileState) : Bool :=
  match x.waitFerry with
  | none => true
  | some w =>
    let sl := x.slot w.1
    decide (sl.phase = .idle ∨ sl.phase = .done) || decide (w.2 ≤ sl.done)

/-- The tile may dispatch: its job runs and is not held, and no earlier instruction of its stream blocks it (R207, R252, R278,
R356). A DRAW in progress holds what follows it, so that every later instruction sees its writes (R176; log 128). -/
def State.canIssue (s : State) (t : Nat) : Bool :=
  let x := s.tile t
  (match s.part (s.ownerOf t) with
   | some p => p.dispatching
   | none => false) &&
    !x.ended && !x.halted && x.waitOver && x.bar.issued.isNone && !x.drawBusy

/-- New work restarts a gated tile and a sleeping die (R449, R450). -/
def State.wakeTile (s : State) (t : Nat) : State :=
  match s.place (t % 48) (t / 48) with
  | none => s
  | some q =>
    let g : State := { s with power := { s.power with gated := s.power.gated.erase (physIx q.1 q.2) } }
    if (g.diePower (dieAt q.1 q.2)).asleep then g.updDie (dieAt q.1 q.2) fun d => { d with asleep := false } else g

/-- A handler of a partition runs: its instructions are not counted (R255). -/
def State.inHandler (s : State) (p : Nat) : Bool :=
  match s.part p with
  | some x => x.handler
  | none => false

/-- The position and, outside a handler, ISEQ count the instruction that a tile takes. -/
def TileState.takes (handler : Bool) (x : TileState) : TileState :=
  { x with pos := x.pos + 1, iseq := if handler then x.iseq else x.iseq + 1, waitFerry := none }

/-- An instruction leaves the stream: the position and ISEQ count it (R273). A WAIT_FERRY that it waited behind is complete. -/
def State.took (s : State) (p t : Nat) : State :=
  let h := s.inHandler p
  let s := if (s.tile t).waitFerry.isSome then s.completed p t (s.tile t).waitIseq.toNat unitNone 0 else s
  (s.wakeTile t).updTile t (TileState.takes h)

/-- Dispatches an instruction whose operand words the load rules accept; f is given the partition and the ISEQ. An instruction that cannot
be dispatched now, or that no loaded stream can hold, leaves the state as it is. -/
def State.dispatch (s : State) (t : Nat) (ok : Bool) (f : Nat → BitVec 32 → State → State) : State :=
  if ok && s.canIssue t then f (s.ownerOf t) (s.tile t).iseq (s.took (s.ownerOf t) t) else s

/-- Dispatches an instruction that completes in the tile's control and digests nothing (R276, UNIT NONE). -/
def State.dispatchPlain (s : State) (t : Nat) (ok : Bool) (f : Nat → State → State) : State :=
  s.dispatch t ok fun p iseq s => (f p s).completed p t iseq.toNat unitNone 0

/-- An instruction as the load rules see it. -/
def ins (opc : Nat) (stepIdx : Bool) (ws : List Word) : Ins := ⟨0, opc, stepIdx, ws⟩

/-- Position of a tile in its partition's rectangle: width, height, index (Table 12-18). -/
def State.spot (s : State) (t : Nat) : Nat × Nat × Nat :=
  match s.rect (s.ownerOf t) with
  | some q => (q.w, q.h, q.indexOf t)
  | none => (0, 0, 0)

/-- STEP_IDX: bits 31:0 of MERIDIAN go into bits 63:32 of an index base (R359). -/
def State.indexWord (s : State) (p : Nat) (stepIdx : Bool) (w : Word) : Word :=
  if stepIdx then (w &&& 0xFFFFFFFF) ||| (s.meridian p <<< 32) else w

/-! ## LOOP, ENDLOOP, END -/

/-- LOOP opens a body (R358). The counters hold the position after LOOP and the runs left. -/
def execLoopOpen (tile : Nat) (w0 : Word) (s : State) : Host.Outcome State Fault Refusal :=
  .next (finish s (
    let n := bits w0.toNat 31 0
    s.dispatchPlain tile (decide (bits w0.toNat 63 32 = 0) && decide (n ≠ 0) && decide ((s.tile tile).loops.length < 4)) fun _ s =>
      s.updTile tile fun x => { x with loops := (x.pos, n) :: x.loops }))

/-- ENDLOOP: back to the start of the body while runs are left (R358). -/
def execLoopClose (tile : Nat) (s : State) : Host.Outcome State Fault Refusal :=
  .next (finish s (
    s.dispatchPlain tile (!(s.tile tile).loops.isEmpty) fun _ s =>
      s.updTile tile fun x =>
        match x.loops with
        | [] => x
        | (start, n) :: rest =>
          if 1 < n then { x with pos := start, loops := (start, n - 1) :: rest } else { x with loops := rest }))

/-- END at a tile whose load handler runs ends the handler there, and the streams begin once every tile of the partition has ended its own;
END of a save handler leaves the stream as it was. The manual does not say where a handler ends (DESIGN CHOICE, log 122). -/
def State.handlerEnd (s : State) (p t : Nat) : State :=
  match (s.part p).bind (·.run) with
  | some r =>
    if !r.loading then s
    else
      let s := s.updTile t fun x => { x with ended := true }
      if (s.tilesOf p).all fun u => (s.tile u).ended then
        (s.updTiles (s.tilesOf p) fun x => { x with ended := false, pos := 0 }).updRun p fun r => { r with loading := false }
      else s
  | none => s

/-- END marks the stream done (R360). -/
def execEndStream (tile : Nat) (s : State) : Host.Outcome State Fault Refusal :=
  .next (finish s (
    s.dispatchPlain tile (s.tile tile).loops.isEmpty fun p s =>
      if s.inHandler p then s.handlerEnd p tile else s.updTile tile fun x => { x with ended := true }))

end Sys2Proof.Machine
end

