-- ==== Sys2Proof/Machine/Barrier.lean ====
section
/-! DEFINITION. BARRIER and STEP: the gather over a partition's tiles, the release, the tree over the panels of a multi-panel job (R207,
R267, R306, R511). -/

namespace Sys2Proof.Machine

/-! ## The path of the gather (R207): rows from west to east, then the east column from south to north -/

/-- The tile an ARRIVE goes to; none for the north-east tile. -/
def Rect.barNext (q : Rect) (t : Nat) : Option Nat :=
  if t % 48 + 1 < q.x0 + q.w then some (t + 1)
  else if t / 48 + 1 < q.y0 + q.h then some (t + 48)
  else none

/-- The tiles whose ARRIVE a tile holds before it sends its own. -/
def Rect.barFrom (q : Rect) (t : Nat) : List Nat :=
  (if q.x0 < t % 48 then [t - 1] else []) ++ (if t % 48 + 1 = q.x0 + q.w ∧ q.y0 < t / 48 then [t - 48] else [])

/-- The north-east tile. -/
def Rect.northEast (q : Rect) : Nat := tileIx (q.x0 + q.w - 1) (q.y0 + q.h - 1)

/-- The kinds of a tile's own instruction and of the arrivals it holds differ. -/
def BarState.differs (b : BarState) : Bool :=
  match b.issued with
  | some k => b.held.any fun h => !h.2.2 && decide (h.2.1 ≠ k)
  | none => false

/-- The gather that a tile passes on is marked failed (R511). -/
def BarState.failed (b : BarState) : Bool := b.differs || b.held.any fun h => h.2.2

/-- A tile has issued its instruction and holds every arrival. -/
def BarState.ready (b : BarState) (from_ : List Nat) : Bool :=
  b.issued.isSome && !b.sent && from_.all fun t => b.held.any fun h => decide (h.1 = t)

/-- A tile completes its BARRIER or STEP and passes RELEASE on; a failed one stops its dispatch (R207, R511). -/
def State.barComplete (s : State) (q : Rect) (t : Nat) (failed : Bool) : State :=
  let s := s.updTile t fun x => { x with bar := {}, halted := x.halted || failed }
  s.updTiles (q.barFrom t) fun x => { x with bar := { x.bar with release := some failed } }

/-- The instruction-ring entry of a completed barrier: the number its dispatch took (R276). -/
def State.barEntry (s : State) (p t : Nat) : State :=
  s.completed p t (s.tile t).bar.iseq.toNat unitNone 0

/-! ## The tree of panels (R306) -/

/-- This panel's position in the panel list. -/
def State.position (s : State) (j : Job) : Nat := (j.panelList.findIdx? fun n => decide (n = s.panel)).getD 0

/-- Positions of the children of a position. -/
def treeChildren (i n : Nat) : List Nat := ((List.range 16).map fun k => 16 * i + 1 + k).filter fun c => decide (c < n)

/-- BARRIER payload (Table 11-7). -/
def barrierPayload (step : Nat) (mpj : BitVec 32) (kind count : Nat) : List Byte :=
  beBytes 8 step ++ beBytes 4 mpj.toNat ++ beBytes 1 kind ++ [0, 0, 0] ++ beBytes 4 count ++ List.replicate 12 0

/-- A BARRIER frame to the panel at a position. -/
def State.sendBarrier (s : State) (p : Nat) (j : Job) (at_ kind count : Nat) : State :=
  match j.panelList[at_]? with
  | some peer => s.tribSend p peer 0 0x05 0 0 (barrierPayload (s.meridian p).toNat j.mpj kind count)
  | none => s

/-- RELEASE to every child, and the partition may release its tiles. -/
def State.treeRelease (s : State) (p : Nat) (j : Job) : State :=
  let s := (treeChildren (s.position j) j.panelList.length).foldl (fun s c => s.sendBarrier p j c 1 0) s
  s.updPart p fun x => { x with released := true }

/-- The own gather and the ARRIVE of every child are there: ARRIVE to the parent, or the root's count and RELEASE. An ARRIVE held for
another step than the one gathered, or a count that disagrees, ends the job. -/
def State.treeCheck (s : State) (p : Nat) : State :=
  match s.part p, s.running p with
  | some x, some (_, j) =>
    let i := s.position j
    let bad := (s.raise { det := 0x0A02, loc := { die := 0x40 }, part := p }).endJob p .aborted
    if x.released then s
    else if x.gathered && x.arrives.any fun a => decide (a.2.2 ≠ x.meridian.toNat) then bad
    else if x.gathered && (treeChildren i j.panelList.length).all fun c => x.arrives.any fun a => decide (a.1 = c) then
      let n := x.arrives.foldl (fun n a => n + a.2.1) 1
      if i ≠ 0 then s.sendBarrier p j ((i - 1) / 16) 0 n
      else if n = j.panelList.length then s.treeRelease p j
      else bad
    else s
  | _, _ => s

/-! ## The release -/

/-- MERIDIAN advances, and the north-east tile releases the gather (R267). -/
def State.releaseStep (s : State) (p : Nat) (q : Rect) : State :=
  let id := (s.running p).map fun r => r.1.id
  let s := ((s.tilesOf p).foldl (fun s t => s.barEntry p t) s).advance p
  if (s.running p).map (fun r => r.1.id) = id then s.barComplete q q.northEast false else s

/-- The north-east tile holds the whole gather: it releases, or a STEP waits for the pair and for the panels of the job (R207, R267,
R279, R306, R312). -/
def State.tryRelease (s : State) (p : Nat) : State :=
  match s.rect p, s.part p, s.running p with
  | some q, some x, some (r, j) =>
    let ne := q.northEast
    let b := (s.tile ne).bar
    if !b.sent || !x.dispatching then s
    else if b.failed then s.barComplete q ne true
    else if b.issued ≠ some true then (s.barEntry p ne).barComplete q ne false
    else if r.peerLost then s.endJob p .peerLost
    else
      let s := if bit j.flags 4 && !x.gathered then (s.updPart p fun x => { x with gathered := true }).treeCheck p else s
      let free := !(bit j.flags 4) || (match s.part p with
        | some x => x.released
        | none => false)
      if free && (s.running p).isSome && s.mayAdvance p then s.releaseStep p q else s
  | _, _, _ => s

/-- A tile that holds everything passes its ARRIVE on; it raises 0x0412 where it finds the kinds to differ (R511). -/
def State.barPass (s : State) (p : Nat) (q : Rect) (t : Nat) : State :=
  let b := (s.tile t).bar
  if b.ready (q.barFrom t) then
    let s := if b.differs then s.raise { det := 0x0412, loc := s.locOf t, part := p } else s
    let s := s.updTile t fun x => { x with bar := { x.bar with sent := true } }
    if t = q.northEast then s.tryRelease p else s
  else s

/-- A tile issues BARRIER or STEP. -/
def State.barIssue (s : State) (t : Nat) (step : Bool) : State :=
  s.dispatch t true fun p iseq s =>
    match s.rect p with
    | some q => (s.updTile t fun x => { x with bar := { x.bar with issued := some step, iseq := iseq } }).barPass p q t
    | none => s

def execBarrier (tile : Nat) (s : State) : Host.Outcome State Fault Refusal := .next (finish s (s.barIssue tile false))

def execStepBarrier (tile : Nat) (s : State) : Host.Outcome State Fault Refusal := .next (finish s (s.barIssue tile true))

/-- The ARRIVE of a tile reaches the next one; it is there only between its sending and the release (R207). -/
def State.barArrive (s : State) (t src : Nat) : State :=
  let p := s.ownerOf t
  match s.rect p with
  | none => s
  | some q =>
    let a := (s.tile src).bar
    let b := (s.tile t).bar
    match a.issued with
    | some k =>
      if q.has src ∧ q.barNext src = some t ∧ a.sent ∧ a.release = none ∧ !(b.held.any fun h => decide (h.1 = src)) then
        (s.updTile t fun x => { x with bar := { x.bar with held := x.bar.held ++ [(src, k, a.failed)] } }).barPass p q t
      else s
    | none => s

def execBarrierArrive (tile src : Nat) (s : State) : Host.Outcome State Fault Refusal := .next (finish s (s.barArrive tile src))

/-- RELEASE reaches a tile. The last tile of a failed gather ends the job with ST_BAD_FORMAT (R511). At the north-east tile it is the
release that has waited. -/
def State.barRelease (s : State) (t : Nat) : State :=
  let p := s.ownerOf t
  match s.rect p with
  | none => s
  | some q =>
    match (s.tile t).bar.release with
    | none => if t = q.northEast then s.tryRelease p else s
    | some failed =>
      let s := if failed || decide ((s.tile t).bar.issued ≠ some false) then s else s.barEntry p t
      let s := s.barComplete q t failed
      if failed && (s.tilesOf p).all fun u => (s.tile u).halted then s.endJob p .badFormat else s

def execBarrierRelease (tile : Nat) (s : State) : Host.Outcome State Fault Refusal := .next (finish s (s.barRelease tile))

end Sys2Proof.Machine
end

