-- ==== Sys2Proof/Machine/Tributary.lean ====
section
/-! DEFINITION. Tributary frames that arrive, and the transport's timers (R278-R283, R286-R300, R302-R306, R309, R310, R312, R313, R412,
R413, R486). -/

namespace Sys2Proof.Machine

/-! ## Acknowledgement of what was sent (R298, R299, R310) -/

/-- Nanoseconds since reset, in the REF cycles the model counts. -/
def State.nowNs (s : State) : Nat := s.clock.ref * 40

/-- RTO_MIN_US and RETRY_MAX of a port (Table 11-10). -/
def TPort.rtoMin (p : TPort) : Nat := bits p.cfg.toNat 23 16
def TPort.retryMax (p : TPort) : Nat := bits p.cfg.toNat 15 8

/-- A round-trip sample in nanoseconds (R299; RFC 6298). -/
def Conn.sample (k : Conn) (rtoMin r : Nat) : Conn :=
  let q : Nat × Nat :=
    match k.srtt with
    | none => (r, r / 2)
    | some v => ((7 * v + r) / 8, (3 * k.rttvar + (if v < r then r - v else v - r)) / 4)
  { k with srtt := some q.1, rttvar := q.2, rto := max rtoMin (min 10000 ((q.1 + 4 * q.2) / 1000)) }

/-- a lies below b in the circle of SEQs. -/
def seqBelow (a b : BitVec 32) : Bool := decide (a ≠ b) && decide ((b - a).toNat < 2 ^ 31)

/-- Frames that an acknowledgement covers leave the retransmission buffer; the others count the higher SEQs it covers. -/
def Conn.acked (k : Conn) (now rtoMin : Nat) (hit : BitVec 32 → Bool) : Conn :=
  let gone := k.unacked.filter fun t => hit t.seq
  let left : List TSent := (k.unacked.filter fun t => !(hit t.seq)).map fun t =>
    { t with passed := t.passed + (gone.filter fun g => seqBelow t.seq g.seq).length }
  let k : Conn := { k with unacked := left, openAcked := k.openAcked || gone.any fun t => decide (t.type = 7) }
  match (gone.filter fun t => decide (t.xmit = 0)).getLast? with
  | some t => k.sample rtoMin (now - t.sentAt * 40)
  | none => k

/-- A frame sent again with XMIT + 1 (R299). -/
def State.resend (s : State) (k : Conn) (t : TSent) (f : TSent → TSent) : State :=
  let t' := f { t with xmit := t.xmit + 1 }
  ((s.emit k t').updConn k.part k.peer k.ix fun c =>
    { c with unacked := c.unacked.map fun u => if u.seq = t.seq then t' else u }).raise
      { det := 0x0A03, loc := portLoc k.port, part := k.part }

/-- The target of a multicast copy has taken the message: its bit is set (R304). -/
def Conn.taken (k : Conn) (t : TSent) : Bool := t.mcast && !(k.sending.any fun m => decide (serialCtx m.serial = t.context))

/-- Frames passed by three acknowledged SEQs are sent again, once per SRTT; a multicast copy only to a target whose bit is clear (R299,
R304). -/
def State.fastResend (s : State) (part peer ix : Nat) : State :=
  match s.conn part peer ix with
  | none => s
  | some k =>
    let due := fun (t : TSent) => !(k.taken t) && decide (3 ≤ t.passed ∧ t.xmit < 15) &&
      match t.fastAt with
      | none => true
      | some a => decide (k.srtt.getD 0 ≤ s.nowNs - a * 40)
    (k.unacked.filter due).foldl (fun s t => s.resend k t fun u => { u with fastAt := some s.clock.ref }) s

/-- Both sides have sent LEAVE and every frame of the connection is acknowledged (R291). -/
def Conn.closed (k : Conn) : Bool := k.leaving && k.left && k.unacked.isEmpty && k.waiting.isEmpty && decide (k.ackDue = 0)

/-- A connection that both sides have left is closed once its frames are acknowledged (R291). -/
def State.closeDone (s : State) (part peer ix : Nat) : State :=
  match s.conn part peer ix with
  | some k => if k.closed then { s with trib := { s.trib with conns := s.trib.conns.filter fun c => !(c.is part peer ix) } } else s
  | none => s

/-- What follows an acknowledgement: retransmissions, waiting frames of every connection of the port, whose buffer may have room again, the
opening of the job, the closing of a connection that both sides have left. -/
def State.afterAck (s : State) (part peer ix : Nat) : State :=
  let s := s.fastResend part peer ix
  match s.conn part peer ix with
  | none => s
  | some k =>
    let n := s.trib.conns.foldl (fun n c => if c.port = k.port then n + c.waiting.length else n) 0
    ((State.pumpPort (if n = 0 then 0 else 3 * n + 65) s k.port).checkOpen part).closeDone part peer ix

/-- take_ack of R294. -/
def State.takeTribAck (s : State) (k : Conn) (ack : BitVec 32) : State :=
  let m := (s.tport k.port).rtoMin
  (s.updConn k.part k.peer k.ix fun c => c.acked s.nowNs m fun q => seqBelow q ack).afterAck k.part k.peer k.ix

/-- on_ack of R310. -/
def Conn.onAck (k : Conn) (ref ce rx : Nat) : Conn :=
  if ce = 0 ∨ (ref - k.lastCut) * 40 < 20000 then k
  else
    let alpha := k.alpha * 15 / 16 + ((ce : Rat) / (rx : Rat)) / 16
    let rate := k.rate * (1 - alpha / 2)
    { k with alpha := alpha, target := k.rate, rate := if rate < 1 then 1 else rate, lastCut := ref, calm := 0 }

/-- Ferries whose messages the peer's horizon has passed (R304). -/
def Conn.passedFerries (k : Conn) (h : Nat) : List (Nat × Nat) :=
  (k.sending.filter fun m => decide (0 < (h + 2 ^ 24 - m.serial) % 2 ^ 24 ∧ (h + 2 ^ 24 - m.serial) % 2 ^ 24 < 2 ^ 23)).filterMap (·.ferry)

/-- The peer's horizon moves. -/
def Conn.setHorizon (k : Conn) (h : Nat) : Conn :=
  if (h + 2 ^ 24 - k.peerHorizon) % 2 ^ 24 < 2 ^ 23 then
    { k with peerHorizon := h,
             sending := k.sending.filter fun m => !(decide (0 < (h + 2 ^ 24 - m.serial) % 2 ^ 24 ∧ (h + 2 ^ 24 - m.serial) % 2 ^ 24 < 2 ^ 23)) }
  else k

/-- take_sack of R294 (Table 11-5). -/
def State.takeSack (s : State) (k : Conn) (ack : BitVec 32) (b : List Byte) : State :=
  let sack := field b 0 8
  let h := field b 8 4
  if b.length ≠ 32 ∨ 2 ^ 24 ≤ h ∨ !(zeroBytes b 20 12) then s.raise { det := 0x0A02, loc := portLoc k.port, part := k.part }
  else
    let hit := fun (q : BitVec 32) =>
      let d := (q - ack - 1).toNat
      decide (d < 64) && bit sack d
    let m := (s.tport k.port).rtoMin
    let polls := match s.conn k.part k.peer k.ix with
      | some c => c.passedFerries h
      | none => []
    let s := s.updConn k.part k.peer k.ix fun c =>
      ((c.acked s.nowNs m hit).setHorizon h).onAck s.clock.ref (field b 12 4) (field b 16 4)
    let s := s.afterAck k.part k.peer k.ix
    polls.foldl (fun s f => s.portPoll k.part f.1 f.2) s

/-! ## What frames deliver -/

/-- A frame that breaks a table (0x0A02). -/
def State.badFrame (s : State) (k : Conn) : State := s.raise { det := 0x0A02, loc := portLoc k.port, part := k.part }

/-- A message of a context brought up to date with one frame: its bytes at their offset, or none when the frame belongs to another message. -/
def Conn.rxFrame (k : Conn) (serial type off : Nat) (bs : List Byte) (total : Option Nat) (channel : Nat) (mcast : Bool) : Option RxMsg :=
  let m := k.rx.getD serial { type := type, channel := channel, mcast := mcast }
  let lenOk := match m.total, total with
    | some a, some b => decide (a = b)
    | _, _ => true
  if m.type = type ∧ m.channel = channel ∧ lenOk = true then some (m.put off bs total) else none

/-- The region of a kind, and of a channel for a receive ring (R352). -/
def Part.regionOf (x : Part) (kind channel : Nat) : Option Region :=
  x.program.bind fun g => g.regions.find? fun r => decide (r.kind = kind) && (decide (kind ≠ 2) || decide (r.channel = channel))

/-- The port engine writes received bytes into a region of the partition's pages (R105, R165, R302, R415). Where in the region they stand the
manual leaves open: a free value (log 78). -/
def State.regionWrite (s : State) (p kind channel : Nat) (place : Region → Nat) (bs : List Byte) : State :=
  match s.part p with
  | none => s
  | some x =>
    match x.regionOf kind channel with
    | none => s
    | some r =>
      let va := r.va + place r % (r.bytes + 1 - bs.length)
      if bs.length ≤ r.bytes ∧ x.rangeMapped va bs.length then s.writeVa x va bs else s

/-- DATA (R302). -/
def State.deliverData (s : State) (k : Conn) (serial : Nat) (mcast : Bool) (b : List Byte) : State :=
  let len := field b 0 4
  let off := field b 4 4
  let data := b.drop 16
  if b.length < 17 ∨ len = 0 ∨ 16777216 < len ∨ len < off + data.length ∨ !(zeroBytes b 9 7) then s.badFrame k
  else
    match k.rxFrame serial 1 off data (some len) (field b 8 1) mcast with
    | none => s.badFrame k
    | some m =>
      let s := s.updConn k.part k.peer k.ix fun c => c.setRx serial m
      let slot := fun (r : Region) => Config.ringSlot k.peer serial % (r.bytes / max 1 r.maxMsg) * r.maxMsg + off
      let s := s.regionWrite k.part 2 (field b 8 1) slot data
      if m.whole then s.portArrived k.part else s

/-- The chain inbox takes entries; the first copy stands (R105). Frames of one result that carry different SEG_NEXT or CH_OP mark it (R101). -/
def putChain (id step lead op : Nat) (off : Nat) (bs : List Byte) (total : Option Nat) (abort : Bool) : List ChainIn → List ChainIn
  | [] => [{ id := id, step := step, lead := lead, op := op, parts := if abort then [] else [(off, bs)], total := total, abort := abort }]
  | c :: t =>
    if c.id = id ∧ c.step = step then
      { c with parts := if abort || c.parts.has off then c.parts else c.parts.set off bs,
               mixed := c.mixed || (!abort && (decide (c.lead ≠ lead) || decide (c.op ≠ op))),
               total := match c.total with
                 | some n => some n
                 | none => total,
               abort := c.abort || abort } :: t
    else c :: putChain id step lead op off bs total abort t

/-- A leg head of the partition waits on an instance (R103). -/
def State.headWaits (s : State) (p id step : Nat) : Bool :=
  (s.tilesOf p).any fun t => (s.tile t).chains.any fun e =>
    !e.started && decide (e.words.inDir = 5) && decide (e.words.id = id) && decide (e.step = step)

/-- CHAIN (R104, R105, R107). -/
def State.deliverChain (s : State) (k : Conn) (serial : Nat) (b : List Byte) : State :=
  let step := field b 0 8
  let id := field b 8 4
  let off := field b 16 4 * 8
  let num := field b 20 2
  let flags := field b 22 2
  let abort := bit flags 14
  let bs := b.drop 24
  if b.length < 24 ∨ bs.length ≠ 8 * num ∨ bits flags 13 4 ≠ 0 ∨ 3 < flags % 16 ∨ (if abort then num ≠ 0 else num = 0 ∨ 1021 < num) then s.badFrame k
  else
    let last := bit flags 15 || abort
    let total := if last then some (off + bs.length) else none
    match k.rxFrame serial 4 off bs total 0 false with
    | none => s.badFrame k
    | some m =>
      let m : RxMsg := { m with complete := m.whole || abort }
      let s := s.updConn k.part k.peer k.ix fun c => c.setRx serial m
      let fresh := !abort && !((((s.part k.part).getD {}).chainIn.any fun c => decide (c.id = id ∧ c.step = step) && c.parts.has off))
      let s := if fresh then s.regionWrite k.part 0 0 (fun _ => Config.inboxPlace id step off) bs else s
      let s := s.updPart k.part fun x =>
        { x with chainIn := putChain id step (field b 12 4) (flags % 16) off bs (if abort then none else total) abort x.chainIn }
      if abort && s.headWaits k.part id step then s.endJob k.part .aborted else s

/-- The halo inbox takes entries; the first copy stands (R165). -/
def putHalo (h : HaloIn) (off : Nat) (bs : List Byte) (total : Option Nat) : List HaloIn → List HaloIn
  | [] => [{ h with parts := [(off, bs)], total := total }]
  | c :: t =>
    if c.sameGroup h then
      { c with parts := if c.parts.has off then c.parts else c.parts.set off bs,
               total := match c.total with
                 | some n => some n
                 | none => total } :: t
    else c :: putHalo h off bs total t

/-- HALO (R164, R165). -/
def State.deliverHalo (s : State) (k : Conn) (serial : Nat) (b : List Byte) : State :=
  let flags := field b 22 2
  let wide := bit flags 14
  let size := if wide then 520 else 8
  let num := field b 20 2
  let off := field b 16 4 * size
  let bs := b.drop 24
  let last := bit flags 15
  if b.length < 24 ∨ bs.length ≠ size * num ∨ bits flags 13 0 ≠ 0 ∨ 15 < field b 12 2 ∨ (num = 0 && !last) then s.badFrame k
  else
    let total := if last then some (off + bs.length) else none
    match k.rxFrame serial 3 off bs total 0 false with
    | none => s.badFrame k
    | some m =>
      let m : RxMsg := { m with complete := m.whole }
      let s := s.updConn k.part k.peer k.ix fun c => c.setRx serial m
      let h : HaloIn := { panel := k.peer, src := field b 14 2, step := field b 0 8, sweep := field b 8 4, colour := field b 12 2, wide := wide }
      let held := ((s.part k.part).getD {}).haloIn.any fun c => c.sameGroup h && c.parts.has off
      let s := if held then s else s.regionWrite k.part 1 0 (fun _ => Config.haloPlace h.src h.step h.sweep h.colour off) bs
      s.updPart k.part fun x => { x with haloIn := putHalo h off bs total x.haloIn }

/-- The step of an ARRIVE matches the barrier that waits; where none waits yet, it is held for one to come (R306). -/
def Part.arriveFits (x : Part) (step : Nat) : Bool :=
  if x.released then decide (x.meridian.toNat < step)
  else if x.gathered then decide (step = x.meridian.toNat)
  else decide (x.meridian.toNat ≤ step)

/-- BARRIER: an ARRIVE of a child, or the RELEASE of the parent (R306). -/
def State.deliverBarrier (s : State) (k : Conn) (b : List Byte) : State :=
  let p := k.part
  match s.part p, s.running p with
  | some x, some (_, j) =>
    let from_ := (j.panelList.findIdx? fun n => decide (n = k.peer)).getD j.panelList.length
    let i := s.position j
    let same := decide (field b 0 8 = (s.meridian p).toNat) && decide (field b 8 4 = j.mpj.toNat)
    if b.length ≠ 32 ∨ 1 < field b 12 1 ∨ !(zeroBytes b 13 3) ∨ !(zeroBytes b 20 12) then s.badFrame k
    else if field b 12 1 = 0 then
      if field b 8 4 ≠ j.mpj.toNat ∨ !(x.arriveFits (field b 0 8)) ∨ from_ ∉ treeChildren i j.panelList.length ∨
          x.arrives.any (fun a => decide (a.1 = from_) && decide (a.2.2 = field b 0 8)) then
        (s.badFrame k).endJob p .aborted
      else (((s.updPart p fun x => { x with arrives := x.arrives ++ [(from_, field b 16 4, field b 0 8)] }).treeCheck p).tryRelease p)
    else if same ∧ i ≠ 0 ∧ from_ = (i - 1) / 16 ∧ x.gathered then (s.treeRelease p j).tryRelease p
    else s.badFrame k
  | _, _ => s

/-- LEAVE (R291, R312, R313, R486). After the peer's JOB_END this side sends its own at the end of its job. -/
def State.deliverLeave (s : State) (k : Conn) (b : List Byte) : State :=
  if b.length ≠ 32 ∨ 3 < field b 4 1 ∨ !(zeroBytes b 5 27) then s.badFrame k
  else if field b 4 1 = 3 then
    let s := s.updConn k.part k.peer k.ix fun c => { c with left := true }
    let s := if (s.running k.part).isSome && !k.leaving then s.peerGone k.part k.peer else s
    s.afterAck k.part k.peer k.ix
  else s.panelLost k.peer

/-- OPEN (R289, R312). -/
def State.deliverOpen (s : State) (k : Conn) (b : List Byte) : State :=
  let epoch := field b 0 4
  if b.length ≠ 32 ∨ !(zeroBytes b 15 17) then s.badFrame k
  else if s.trib.conns.any fun c => decide (c.peer = k.peer) && c.openGot && decide (c.peerEpoch.toNat ≠ epoch) then s.panelLost k.peer
  else
    let pos := match s.running k.part with
      | some (_, j) => (j.panelList.findIdx? fun n => decide (n = k.peer)).getD 0
      | none => 0
    let s : State := { s with trib := { s.trib with lost := s.trib.lost.filter fun n => decide (n ≠ k.peer) } }
    if field b 4 4 ≠ k.mpj.toNat ∨ field b 8 4 ≠ pos ∨ field b 12 2 ≠ k.win ∨ field b 14 1 ≠ k.share then s.endJob k.part .refused
    else
      (s.updConn k.part k.peer k.ix fun c =>
        { c with openGot := true, peerEpoch := BitVec.ofNat 32 epoch, peerPos := pos }).checkOpen k.part

/-! ## Lock-step messages (R278-R283) -/

/-- A lock-step message for a partition from its peer. -/
def State.takeLstep (s : State) (p : Nat) (b : List Byte) : State :=
  match s.part p with
  | none => s
  | some x =>
    match x.pairing with
    | none => s
    | some pr =>
      let step := field b 8 8
      let mine := decide (field b 0 4 = pr.pairId.toNat)
      match field b 4 1 with
      | 0 =>
        if pr.startSent ∧ !pr.started ∧ (s.pairOf p).isSome then s.compareStart p b
        else s.updPair p fun q => { q with early := some b }
      | 1 =>
        if mine then
          (State.compareDigests 17 (s.updPair p fun q => { q with peers := q.peers.set step (BitVec.ofNat 64 (field b 16 8)) }) p).tryRelease p
        else s
      | 2 => if mine && (s.pairOf p).isSome then s.freeze p step (pr.peers.has step) else s
      | 3 => if mine then s.updPair p fun q => { q with peerHeld := true } else s
      | 4 => if mine then s.updPair p fun q => { q with peerHeld := false } else s
      | _ => s

/-- LSTEP over a connection. -/
def State.deliverLstep (s : State) (k : Conn) (b : List Byte) : State :=
  let paired := match s.part k.part with
    | some x =>
      match x.pairing with
      | some pr => decide (pr.peerPanel = k.peer ∧ pr.peerPart = k.peerPart)
      | none => false
    | none => false
  if b.length ≠ 80 ∨ 4 < field b 4 1 ∨ !(zeroBytes b 5 3) ∨ !paired then s.badFrame k else s.takeLstep k.part b

/-- A lock-step message within the panel: it is one that was sent and not yet taken (R283). -/
def State.localLstep (s : State) (f : TFrame) : State :=
  let is := fun (w : TWire) => decide (w.port = 0xFF) && decide (w.type = 8) && decide (w.dstPart = f.dstPart.toNat) &&
    decide (w.srcPart = f.srcPart.toNat) && decide (w.body = f.body)
  match s.trib.sent.find? is with
  | none => s
  | some w => ({ s with trib := { s.trib with sent := s.trib.sent.erase w } }).takeLstep w.dstPart w.body

/-! ## trib_receive of R294 -/

/-- Reserved fields and encodings (Table 11-3). -/
def TFrame.reservedSet (f : TFrame) (type : Nat) : Bool :=
  decide (f.flags.toNat % 4096 ≠ 0) || decide (f.reserved ≠ 0) || decide (2 ^ 24 ≤ f.context.toNat) ||
    (tControl type && decide (f.context ≠ 0)) || decide (8192 < f.len.toNat) || decide (f.body.length ≠ f.len.toNat + 16) ||
    decide (1 < f.keyId.toNat) || decide (15 < f.connIx.toNat)

/-- Rotation index a frame's KEY_ID names: the one in force or the next (R413). -/
def Conn.rotOf (k : Conn) (keyId : Nat) : Nat := if k.rotRx % 2 = keyId then k.rotRx else k.rotRx + 1

/-- The cumulative SEQ moves over what has arrived. -/
def Conn.advanceCum : Nat → Conn → Conn
  | 0, k => k
  | n + 1, k =>
    if k.above.contains k.cum then
      Conn.advanceCum n { k with cum := k.cum + 1, above := k.above.filter fun q => decide (q ≠ k.cum) }
    else k

/-- mark_seq: the SEQ is acknowledged from here on; a receive key is replaced once the cumulative SEQ has passed the first frame under the
next (R298, R413). -/
def Conn.markSeq (k : Conn) (seq : BitVec 32) (rot : Nat) : Conn :=
  let k : Conn := { k with above := seq :: k.above, ackDue := k.ackDue + 1,
                           rotFirst := if rot = k.rotRx then k.rotFirst else some (k.rotFirst.getD seq) }
  let k := Conn.advanceCum k.above.length k
  match k.rotFirst with
  | some q => if seqBelow q k.cum then { k with rotRx := k.rotRx + 1, rotFirst := none } else k
  | none => k

/-- deliver of R294. -/
def State.deliver (s : State) (k : Conn) (f : TFrame) (type : Nat) (b : List Byte) : State :=
  let serial := ctxSerial f.context.toNat
  match type with
  | 1 => s.deliverData k serial (f.flags.getLsbD 12) b
  | 3 => s.deliverHalo k serial b
  | 4 => s.deliverChain k serial b
  | 5 => s.deliverBarrier k b
  | 6 => s.deliverLeave k b
  | 7 => s.deliverOpen k b
  | _ => s.deliverLstep k b

/-- The context of a frame lies in the window, or why it does not: the detector (R294). -/
def Conn.ctxFault (k : Conn) (f : TFrame) (type : Nat) : Option Nat :=
  if tControl type then none
  else
    let d := (ctxSerial f.context.toNat + 2 ^ 24 - k.horizon) % 2 ^ 24
    if 2 ^ 23 ≤ d then some 0x0A05 else if k.win ≤ d then some 0x0A02 else none

/-- A frame whose tag is right. -/
def State.tribOpened (s : State) (k : Conn) (rot : Nat) (f : TFrame) (type : Nat) (b : List Byte) : State :=
  let hit := fun (s : State) (det : Nat) => s.raise { det := det, loc := portLoc k.port, part := k.part }
  let now := fun (s : State) => s.ackNow k.part k.peer k.ix
  let s := s.updConn k.part k.peer k.ix fun c => { c with rxCount := c.rxCount + 1, ceCount := c.ceCount + bnat f.ce }
  let s := if f.flags.getLsbD 15 then s.takeTribAck k f.ack else s
  if type = 2 then s.takeSack k f.ack b
  else
    let back := (k.cum - f.seq).toNat
    if (1 ≤ back ∧ back ≤ 2 ^ 31) ∨ k.above.contains f.seq then hit (now s) 0x0A05
    else if 65536 ≤ (f.seq - k.cum).toNat then hit s 0x0A02
    else
      let s := s.updConn k.part k.peer k.ix fun c => c.markSeq f.seq rot
      let s := match s.conn k.part k.peer k.ix with
        | some c => if c.ackCalled f.seq s.clock.ref then now s else s
        | none => s
      match k.ctxFault f type with
      | some det => hit s det
      | none =>
        match s.conn k.part k.peer k.ix with
        | some c => s.deliver c f type b
        | none => s

/-- A Tributary frame of a type arrives. -/
def State.tribReceive (type : Nat) (f : TFrame) (s : State) : State :=
  let bad := fun (s : State) => s.raise { det := 0x0A02, loc := portLoc f.port, part := 0 }
  let lost := s.trib.lost.contains f.srcPanel.toNat && decide (type ≠ 7)
  if s.power.inReset || s.power.deepIdle || !(s.tport f.port).up || (s.tport f.port).disabled then s
  else if !f.udpOk then bad s
  else if lost then s
  else
    match s.conn f.dstPart.toNat f.srcPanel.toNat f.connIx.toNat with
    | none => bad s
    | some k =>
      if k.port ≠ f.port ∨ k.peerPart ≠ f.srcPart.toNat ∨ f.dstPanel.toNat ≠ s.panel ∨ f.version ≠ 1 ∨ f.reservedSet type then bad s
      else
        let rot := k.rotOf f.keyId.toNat
        let aad := tHeader type f.dstPart.toNat f.srcPart.toNat f.srcPanel.toNat f.dstPanel.toNat f.context f.seq f.ack f.flags.toNat
          f.len.toNat f.xmit.toNat f.keyId.toNat f.connIx.toNat
        match gcmOpen (s.keyOf k rot) (tNonce f.srcPanel.toNat f.srcPart.toNat f.dstPart.toNat f.seq f.xmit.toNat f.connIx.toNat) aad f.body with
        | none => s.raise { det := 0x0A01, loc := portLoc k.port, part := k.part }
        | some b => s.tribOpened k rot f type b

def execDataFrame (f : TFrame) (s : State) : Host.Outcome State Fault Refusal := .next (finish s (s.tribReceive 0x01 f))
def execAckFrame (f : TFrame) (s : State) : Host.Outcome State Fault Refusal := .next (finish s (s.tribReceive 0x02 f))
def execHaloFrame (f : TFrame) (s : State) : Host.Outcome State Fault Refusal := .next (finish s (s.tribReceive 0x03 f))
def execChainFrame (f : TFrame) (s : State) : Host.Outcome State Fault Refusal := .next (finish s (s.tribReceive 0x04 f))
/-- An ARRIVE (R306): KIND 0 of a BARRIER frame. -/
def execArriveFrame (f : TFrame) (s : State) : Host.Outcome State Fault Refusal := .next (finish s (s.tribReceive 0x05 f))
/-- A RELEASE (R306): KIND 1 of a BARRIER frame. -/
def execReleaseFrame (f : TFrame) (s : State) : Host.Outcome State Fault Refusal := .next (finish s (s.tribReceive 0x05 f))
def execLeaveFrame (f : TFrame) (s : State) : Host.Outcome State Fault Refusal := .next (finish s (s.tribReceive 0x06 f))
def execOpenConn (f : TFrame) (s : State) : Host.Outcome State Fault Refusal := .next (finish s (s.tribReceive 0x07 f))

/-- An LSTEP frame, or a message that stays on the panel, marked by the port 0xFF (R283). KIND in the payload says which it is. -/
def State.lstepIn (f : TFrame) (s : State) : State := if f.port = 0xFF then s.localLstep f else s.tribReceive 0x08 f

def execStartFrame (f : TFrame) (s : State) : Host.Outcome State Fault Refusal := .next (finish s (s.lstepIn f))
def execDigestFrame (f : TFrame) (s : State) : Host.Outcome State Fault Refusal := .next (finish s (s.lstepIn f))
def execFreezeFrame (f : TFrame) (s : State) : Host.Outcome State Fault Refusal := .next (finish s (s.lstepIn f))
def execHoldFrame (f : TFrame) (s : State) : Host.Outcome State Fault Refusal := .next (finish s (s.lstepIn f))
def execLstepResume (f : TFrame) (s : State) : Host.Outcome State Fault Refusal := .next (finish s (s.lstepIn f))

/-! ## Timers -/

/-- No lock-step message within TIMEOUT_MS (R278, R281). -/
def execLsTimeout (part : Nat) (s : State) : Host.Outcome State Fault Refusal :=
  .next (finish s (
    match s.pairOf part with
    | none => s
    | some pr =>
      if pr.peerHeld then s else ((s.raise { det := 0x1002, part := part }).endJob part .peerLost).unpair part))

/-- A retransmission timer expires (R299, R300). A multicast copy that its target has taken is not sent again (R304). -/
def execRto (part peer ix : Nat) (seq : BitVec 32) (s : State) : Host.Outcome State Fault Refusal :=
  .next (finish s (
    match s.conn part peer ix with
    | none => s
    | some k =>
      match k.unacked.find? fun t => decide (t.seq = seq) with
      | none => s
      | some t =>
        if k.taken t then s
        else if (s.tport k.port).retryMax ≤ t.xmit then s.panelLost peer
        else s.resend k t fun u => { u with timeout := min 10000 (2 * u.timeout) }))

/-- 4 us after the first unacknowledged frame (R298). -/
def execTribAckTimer (part peer ix : Nat) (s : State) : Host.Outcome State Fault Refusal :=
  .next (finish s (
    match s.conn part peer ix with
    | some k => if 0 < k.ackDue then (s.ackNow part peer ix).closeDone part peer ix else s
    | none => s))

/-- every_20us of R310. -/
def Conn.every20us (k : Conn) (ref : Nat) : Conn :=
  if (ref - k.lastCut) * 40 < 20000 then k
  else
    let calm := k.calm + 1
    let target := if 5 < calm then (if k.line < k.target + 5 then k.line else k.target + 5) else k.target
    let rate := (k.rate + target) / 2
    { k with alpha := k.alpha * 15 / 16, calm := calm, target := target, rate := if k.line < rate then k.line else rate }

def execEvery20us (part peer ix : Nat) (s : State) : Host.Outcome State Fault Refusal :=
  .next (finish s (s.updConn part peer ix fun k => k.every20us s.clock.ref))

/-- A connection is not open within 1,000 ms of the job's start (R289). -/
def execOpenTimeout (part : Nat) (s : State) : Host.Outcome State Fault Refusal :=
  .next (finish s (
    match s.running part with
    | some (r, _) =>
      if !r.open_ && !(s.connsReady part) then s.endJob part .peerLost else s
    | none => s))

/-- A port has been down for 50 ms: the peers of its connections are lost (R312). -/
def execPortDownTimeout (port : Nat) (s : State) : Host.Outcome State Fault Refusal :=
  .next (finish s (
    if (s.tport port).up then s
    else ((s.trib.conns.filter fun k => decide (k.port = port)).map (·.peer)).eraseDups.foldl (fun s n => s.panelLost n) s))

/-- A Neighbor Solicitation for a port's address is answered with an Advertisement to the port's gateway (R286). -/
def execNeighborSolicitation (port : Nat) (target : BitVec 128) (s : State) : Host.Outcome State Fault Refusal :=
  .next (finish s (
    if (s.tport port).up && !(s.tport port).disabled && !s.power.inReset && !s.power.deepIdle && s.panelNo.isSome &&
        decide (target = s.addrOf s.panel port) then
      { s with trib := { s.trib with adverts := (port, (s.tport port).gateway) :: s.trib.adverts } }
    else s))

/-- A scale-out port's link goes down, comes up or retrains (R312, R315). -/
def execTribLink (port : Nat) (up retrained : Bool) (s : State) : Host.Outcome State Fault Refusal :=
  .next (finish s (
    let p := s.tport port
    if s.fuses.hasPort port && !p.disabled && !s.power.inReset && !s.power.deepIdle then
      let s : State := { s with trib := { s.trib with ports := s.trib.ports.set port { p with up := up } } }
      if (p.up && !up) || retrained then s.raise { det := 0x0A06, loc := portLoc port, place := port } else s
    else s))

end Sys2Proof.Machine
end

