-- ==== Sys2Proof/Machine/Memory.lean ====
section
/-! DEFINITION. Ferries at work and the HBM controllers: dispatch, requests, page walks, faults, PTE changes, refresh, patrol scrub (R227-R251,
R356). -/

namespace Sys2Proof.Machine

/-! ## FERRY and WAIT_FERRY -/

/-- The descriptor words as the ferry loads them (R243, R359). -/
def State.loadWords (s : State) (p t line : Nat) (stepIdx : Bool) : List Word :=
  let ws := (List.range 8).map fun i => BitVec.ofNat 64 ((s.tile t).sram.nat (line * 64 + 8 * i) 8)
  ws.take 7 ++ [s.indexWord p stepIdx (ws.getD 7 0)]

/-- A multicast group that the program does not have (R304). -/
def State.groupAbsent (s : State) (p : Nat) (d : Desc) : Bool :=
  decide (d.dst = 3) && portMcast d.dstAddr &&
    match s.part p with
    | some x =>
      match x.program with
      | some g => decide (g.groups.length ≤ portPeer d.dstAddr)
      | none => true
    | none => true

/-- A refused descriptor: the record where PROG_LINE lies in the allocation, detector 0x0601, the job ends (R244). -/
def State.ferryRefuse (s : State) (p t n : Nat) (ws : List Word) (iseq : BitVec 32) : State :=
  let f := (s.tile t).ferry
  let sl : Slot := { words := ws, phase := .failed, faultCode := 3, seq := f.descSeq, iseq := iseq }
  let s := s.setSlot t n sl (decide (sl.desc.progLine < 0xFC00))
  (s.raise { det := 0x0601, loc := { s.locOf t with unit := n }, part := p }).endJob p .badFormat

/-- A descriptor starts (R243, R248). -/
def State.ferryStart (s : State) (p t n : Nat) (ws : List Word) (iseq : BitVec 32) : State :=
  let s := s.updTile t fun x => { x with ferry := { x.ferry with descSeq := x.ferry.descSeq + 1 } }
  let sl : Slot := { words := ws, phase := .run, seq := (s.tile t).ferry.descSeq, iseq := iseq }
  let s := s.setSlot t n sl true
  let s := s.updTile t fun x => { x with ferry := { x.ferry with inflightMax := max x.ferry.inflightMax x.ferry.active } }
  s.ferryGo p t n

/-- The slot is free for a new descriptor. -/
def Slot.free (sl : Slot) : Bool := decide (sl.phase = .idle ∨ sl.phase = .done)

/-- A FERRY whose descriptor has, or has not, the OP FILL. A busy slot holds the instruction back. -/
def State.ferryOp (s : State) (t : Nat) (stepIdx : Bool) (w0 : Word) (fill : Bool) : State :=
  let line := bits w0.toNat 63 48
  let n := bits w0.toNat 5 0
  let p := s.ownerOf t
  let ws := s.loadWords p t line stepIdx
  let d := Desc.ofWords ws
  s.dispatch t (singleOk (ins 0x08 stepIdx [w0]) && ((s.tile t).slot n).free && (d.fill == fill) && !((s.tile t).ferryStalls d)) fun p iseq s =>
    if d.ok ws (fun u => decide (s.ownerOf u = p)) && !(s.groupAbsent p d) then s.ferryStart p t n ws iseq
    else s.ferryRefuse p t n ws iseq

/-- COPY; a descriptor with a reserved OP is refused here too (R244, R246). -/
def execFerryCopy (tile : Nat) (stepIdx : Bool) (w0 : Word) (s : State) : Host.Outcome State Fault Refusal :=
  .next (finish s (s.ferryOp tile stepIdx w0 false))

def execFerryFill (tile : Nat) (stepIdx : Bool) (w0 : Word) (s : State) : Host.Outcome State Fault Refusal :=
  .next (finish s (s.ferryOp tile stepIdx w0 true))

/-- WAIT_FERRY (R356): the next instruction waits until the slot is DONE, was never started, or has ELEM_MIN elements. -/
def execWaitFerry (tile : Nat) (w0 : Word) (s : State) : Host.Outcome State Fault Refusal :=
  .next (finish s (
    s.dispatch tile (singleOk (ins 0x0F false [w0])) fun p iseq s =>
      let w := (bits w0.toNat 5 0, bits w0.toNat 63 16)
      let t := s.updTile tile fun x => { x with waitFerry := some w, waitIseq := iseq }
      if (t.tile tile).waitOver then s.completed p tile iseq.toNat unitNone 0 else t))

/-- FERRY_STATUS read: INFLIGHT_MAX restarts (Table 9-3). -/
def execFerryStatus (tile : Nat) (s : State) : Host.Outcome State Fault Refusal :=
  .next (finish s (
    { (s.updTile tile fun x => { x with ferry := { x.ferry with inflightMax := 0 } }) with readOut := (s.tile tile).ferry.status }))

/-! ## Translation (R235-R242) -/

/-- First position that a descriptor has not yet asked HBM for: a sender reads ahead of its message (R301). -/
def Slot.cursor (sl : Slot) : Nat := if sl.desc.dst = 3 then sl.fetched else sl.done

/-- HBM spans of the next request: address, bytes, whether it writes. -/
def Slot.spans (sl : Slot) : List ((Int × Nat) × Bool) :=
  let d := sl.desc
  let a := sl.cursor
  let b := d.chunkEnd a
  (if d.src = 1 ∧ !d.fill then [(d.srcSpan a b, false)] else []) ++ (if d.dst = 1 then [(d.dstSpan a b, true)] else [])

/-- The descriptor has a request to issue: it runs, is not held on a lock, has its message, and positions are left. -/
def Slot.wantsHbm (sl : Slot) : Bool :=
  let d := sl.desc
  decide (sl.phase = .run) && !sl.locked && decide (sl.cursor < d.total) && !(decide (d.src = 3) && !d.fill && !sl.portDone) && !sl.spans.isEmpty

/-- Virtual address as 43 bits or beyond: a run that leaves the space is out of range. -/
def vaOf (a : Int) : Nat := if a < 0 then 2 ^ 43 else a.toNat

/-- Pages of the next request with the first virtual address in each, and whether it is written, in the order of translation. -/
def Slot.pages (sl : Slot) : List (Nat × Nat × Bool) :=
  sl.spans.flatMap fun q => (spanPages (vaOf q.1.1, q.1.2)).map fun v => (v, max (vaOf q.1.1) (v * 2 ^ 21), q.2)

/-- The first fault of a request whose pages are all in the TLB: code and address. -/
def Part.hitFault (x : Part) (tlb : List (Nat × Word)) : List (Nat × Nat × Bool) → Option (Nat × Nat)
  | [] => none
  | (v, va, wr) :: t =>
    if x.vaLimit ≤ va then some (4, va)
    else
      match tlb.find? fun e => decide (e.1 = v) with
      | some e => if wr && !(pteWr e.2) then some (2, va) else x.hitFault tlb t
      | none => x.hitFault tlb t

/-- The page of a request that is not in the TLB and lies in range. -/
def missing (x : Part) (tlb : List (Nat × Word)) (ps : List (Nat × Nat × Bool)) : Option (Nat × Nat × Bool) :=
  ps.find? fun q => decide (q.2.1 < x.vaLimit) && !(tlb.any fun e => decide (e.1 = q.1))

/-- An entry goes to the front of the TLB, which holds 256 (R237). -/
def tlbPut (tlb : List (Nat × Word)) (v : Nat) (e : Word) : List (Nat × Word) :=
  ((v, e) :: tlb.filter fun q => decide (q.1 ≠ v)).take 256

/-- A walk of one page for a slot: the level-1 entry, then the level-2 entry (R236-R238, R241, R242). ECC is that of the two reads; one that
cannot be corrected returns poisoned, which the controller reports for a frame of no partition (R229, R237). -/
def State.walk (s : State) (p t n : Nat) (x : Part) (v va : Nat) (ecc : Ecc) : State :=
  let sl := (s.tile t).slot n
  let e1 := x.level1.getD (v / 2 ^ 11) 0
  let e := x.pte v
  if ecc = .failed then
    (s.raise { det := 0x0502, loc := { unit := siteOf (tableHpa x.tables 0) }, place := tableHpa x.tables 0 / 2 ^ 21 }).ferryFault p t n 6 va
      (faultStatus 6)
  else if level1Reserved e1 then s.ferryFault p t n 3 va (faultStatus 3)
  else if !(pteValid e1) then s.ferryFault p t n 1 va (faultStatus 1)
  else if pteReserved e ∨ (pteValid e && s.frameBad e) then s.ferryFault p t n 3 va (faultStatus 3)
  else if pteLock e then s.setSlot t n { sl with locked := true } false
  else if pteValid e then
    s.updTile t fun y => { y with ferry := { y.ferry with tlb := tlbPut y.ferry.tlb v e } }
  else if pteTouch e then s.setSlot t n { sl with phase := .faultWait, faultCode := 1, faultVa := va } true
  else s.ferryFault p t n 1 va (faultStatus 1)

/-- A corrected word of a block (R229). -/
def State.hbmCorrected (s : State) (site hpa p : Nat) : State :=
  s.raise { det := 0x0501, loc := { unit := site }, part := p, place := hpa / 2 ^ 14 * 2 ^ 14 }

/-- The miss that a slot's next request meets is walked (R237). -/
def execPageWalk (tile slot : Nat) (ecc : Ecc) (s : State) : Host.Outcome State Fault Refusal :=
  .next (finish s (
    let p := s.ownerOf tile
    let sl := (s.tile tile).slot slot
    match s.part p with
    | none => s
    | some x =>
      if !sl.wantsHbm then s
      else
        match missing x (s.tile tile).ferry.tlb sl.pages with
        | some (v, va, _) =>
          let s := if ecc = .corrected then s.raise { det := 0x0501, part := 0 } else s
          s.walk p tile slot x v va ecc
        | none => s))

/-- A ferry held on LOCK walks again (R238). -/
def execLockRetry (tile slot : Nat) (s : State) : Host.Outcome State Fault Refusal :=
  .next (finish s (
    let p := s.ownerOf tile
    let sl := (s.tile tile).slot slot
    match s.part p with
    | none => s
    | some x =>
      if sl.phase = .run ∧ sl.locked then
        let s := s.setSlot tile slot { sl with locked := false } false
        match missing x (s.tile tile).ferry.tlb ({ sl with locked := false } : Slot).pages with
        | some (v, va, _) => s.walk p tile slot x v va .clean
        | none => s
      else s))

/-- Firmware resolves a first-touch fault (R242, R251). A descriptor of a partition that is held keeps FAULT_WAIT until the RESUME, with its page
mapped by then (R253). -/
def execFirstTouch (tile slot : Nat) (s : State) : Host.Outcome State Fault Refusal :=
  .next (finish s (
    let p := s.ownerOf tile
    let sl := (s.tile tile).slot slot
    match s.part p with
    | none => s
    | some x =>
      let v := sl.faultVa / 2 ^ 21
      let go := fun (s : State) =>
        let s := s.raise { det := 0x0604, loc := { s.locOf tile with unit := slot }, part := p }
        if x.dispatching then s.setSlot tile slot { sl with phase := .run, faultCode := 0, faultVa := 0, fetched := 0 } true else s
      if sl.phase ≠ .faultWait then s
      else if pteValid (x.pte v) then (if x.dispatching then go s else s)
      else
        match x.reserve with
        | [] => if x.dispatching then s.ferryFault p tile slot 7 sl.faultVa (faultStatus 7) else s
        | f :: rest =>
          let e := mkPte true x.gen (bit x.flags 0) true f
          let s : State := { s with hbm := s.hbm.clearPage e }
          go (s.updPart p fun x => { x with ptes := x.ptes.set v e, reserve := rest })))

/-! ## Requests (R227, R229, R232-R234, R247) -/

/-- The entries that a request's pages translate through. -/
def usedEntries (tlb : List (Nat × Word)) (ps : List (Nat × Nat × Bool)) : List (Nat × Nat × Bool × Word) :=
  ps.filterMap fun q => (tlb.find? fun e => decide (e.1 = q.1)).map fun e => (q.1, q.2.1, q.2.2, e.2)

/-- The block of a page access lies on a lost stack and no stripe gives it back (R233, R234). -/
def State.blockLost (s : State) (e : Word) (hpa : Nat) : Bool :=
  let lost := fun site => (s.hbm.stackTab.getD site {}).lost
  if ptePar e then
    let g := pteFrame e / 2 ^ 18
    decide (2 ≤ ((List.range 8).filter fun k => lost (8 * g + k)).length)
  else lost (siteOf hpa)

/-- A block of a parity page that only its stripe gives back: it is read and its stack is lost, or its bytes are uncorrectable. A write to a lost
stack reads nothing there: it goes into the parity alone (R229, R233). -/
def State.rebuilds (s : State) (e : Word) (hpa : Nat) (wr : Bool) (ecc : Ecc) : Bool :=
  ptePar e && (decide (ecc = .failed) || (!wr && s.hbm.lost (siteOf hpa)))

/-- What the controller reports for the block of one access: the state, and whether the access is DATA_LOSS (R229, R233, R234). -/
def State.accessBlock (s : State) (p : Nat) (e : Word) (va : Nat) (wr : Bool) (ecc : Ecc) : State × Bool :=
  let hpa := hpaOf e (va % 2 ^ 21)
  let site := siteOf hpa
  let loc : Loc := { unit := site }
  let down := ptePar e && (List.range 8).any fun k => (s.hbm.stackTab.getD (8 * (pteFrame e / 2 ^ 18) + k) {}).lost
  if s.blockLost e hpa then (s, true)
  else if !wr && s.hbm.poisoned.contains (hpa / 256) then (s, true)
  else if s.rebuilds e hpa wr ecc then
    if ecc = .failed ∧ down then (s.raise { det := 0x0502, loc := loc, part := p, place := hpa / 2 ^ 21 }, true)
    else (s.raise { det := 0x0505, loc := loc, part := p }, false)
  else if ecc = .corrected ∧ (!wr || ptePar e) then (s.hbmCorrected site hpa p, false)
  else if ecc = .failed ∧ !wr then
    let s : State := { s with hbm := { s.hbm with poisoned := hpa / 256 :: s.hbm.poisoned } }
    (s.raise { det := 0x0502, loc := loc, part := p, place := hpa / 2 ^ 21 }, true)
  else (s, false)

/-- Every block access of a request, in order; the address that has lost its data, if one has. -/
def State.accessAll (s : State) (p : Nat) (ecc : Ecc) : List (Nat × Nat × Bool × Word) → State × Option Nat
  | [] => (s, none)
  | (_, va, wr, e) :: t =>
    let r := s.accessBlock p e va wr ecc
    if r.2 then (r.1, some va) else r.1.accessAll p ecc t

/-- The controller serves the next request of a slot: its elements move, or the descriptor faults. -/
def State.hbmServe (s : State) (p t n : Nat) (x : Part) (ecc : Ecc) : State :=
  let sl := (s.tile t).slot n
  let d := sl.desc
  let tlb := (s.tile t).ferry.tlb
  let ps := sl.pages
  match missing x tlb ps with
  | some _ => s
  | none =>
    match x.hitFault tlb ps with
    | some (code, va) => s.ferryFault p t n code va (faultStatus code)
    | none =>
      let used := usedEntries tlb ps
      let s := s.updTile t fun y =>
        { y with ferry := { y.ferry with tlb := used.foldl (fun l q => tlbPut l q.1 q.2.2.2) y.ferry.tlb } }
      let r := s.accessAll p ecc used
      match r.2 with
      | some va =>
        if (r.1.running p).isSome then r.1.ferryFault p t n 5 va (faultStatus 5) else r.1
      | none =>
        let s := r.1
        let a := sl.cursor
        let b := d.chunkEnd a
        if d.dst = 3 then
          let s := s.setSlot t n { sl with fetched := b } false
          if b = d.total then (s.sendDescriptor p t n).portPoll p t n else s
        else (s.ferryMove p t n a b).ferryProgress p t n b

/-- HBM_REQUEST (R227): the next request of a descriptor, in the order of its positions. -/
def execHbmRequest (tile slot : Nat) (ecc : Ecc) (s : State) : Host.Outcome State Fault Refusal :=
  .next (finish s (
    let p := s.ownerOf tile
    let s := if ((s.tile tile).slot slot).desc.src = 3 then s.takeMessage p tile slot else s
    match s.part p with
    | some x =>
      let sl := (s.tile tile).slot slot
      if sl.wantsHbm && decide (x.hold ≠ .rest) && !((s.tile tile).ferryStalls sl.desc) then s.hbmServe p tile slot x ecc else s
    | none => s))

/-! ## PTE changes (R240) -/

/-- Firmware may bring a page to this entry: mapped, unlocked, well formed, its frame the old one or a free one. -/
def State.changeOk (s : State) (old new : Word) : Bool :=
  let f := pteFrame new
  pteValid old && !(pteLock old) && pteValid new && !(pteLock new) && !(pteTouch new) && !(pteReserved new) && !(s.frameBad new) &&
    ((decide (pteFrame old = f) && (ptePar old == ptePar new)) || (if ptePar new then s.slotFree f else s.frameFree f))

/-- Steps 1 and 2: LOCK is set and the page is invalidated in every ferry of the partition. -/
def execPteChange (part vpn : Nat) (pte : Word) (s : State) : Host.Outcome State Fault Refusal :=
  .next (finish s (
    match s.part part with
    | none => s
    | some x =>
      if s.changeOk (x.pte vpn) pte then
        let s := s.updPart part fun x => { x with ptes := x.ptes.set vpn (pteSet (x.pte vpn) 59 true) }
        let s := s.updTiles (s.tilesOf part) fun y => { y with ferry := { y.ferry with invalidating := vpn :: y.ferry.invalidating } }
        { s with hbm := { s.hbm with changes := ⟨part, vpn, pte⟩ :: s.hbm.changes } }
      else s))

/-- Once every ferry has acknowledged, the page is moved, the new entry written and LOCK cleared. -/
def State.changeDone (s : State) (p vpn : Nat) : State :=
  match s.part p, s.hbm.changes.find? fun c => decide (c.part = p ∧ c.vpn = vpn) with
  | some x, some c =>
    if (s.tilesOf p).any fun t => (s.tile t).ferry.invalidating.contains vpn then s
    else
      let old := x.pte vpn
      let owned := (s.hbm.owned.erase (frameKey (ptePar old) (pteFrame old))).set (frameKey (ptePar c.pte) (pteFrame c.pte)) p
      let s : State := { s with hbm := { s.hbm.movePage old c.pte with owned := owned, changes := s.hbm.changes.erase c } }
      s.updPart p fun x => { x with ptes := x.ptes.set vpn c.pte }
  | _, _ => s

/-- A ferry acknowledges: it holds no entry for the page (R240). -/
def execInvalidateAck (tile vpn : Nat) (s : State) : Host.Outcome State Fault Refusal :=
  .next (finish s (
    if (s.tile tile).ferry.invalidating.contains vpn then
      (s.updTile tile fun y =>
        { y with ferry := { y.ferry with invalidating := y.ferry.invalidating.filter (fun v => decide (v ≠ vpn)),
                                         tlb := y.ferry.tlb.filter fun e => decide (e.1 ≠ vpn) } }).changeDone (s.ownerOf tile) vpn
    else s))

/-! ## Controllers (R228, R229) -/

/-- A bank is refreshed at the rate its stack's temperature calls for (R228). -/
def execRefreshBank (site temp : Nat) (s : State) : Host.Outcome State Fault Refusal :=
  .next (finish s (
    if s.fuses.hasStack site then
      let k := s.hbm.stackTab.getD site {}
      { s with hbm := { s.hbm with stackTab := s.hbm.stackTab.set site { k with temp := temp, refreshes := k.refreshes + 1 } } }
    else s))

/-- Refreshes per interval of the base rate (R228). -/
def refreshRate (temp : Nat) : Nat := if temp ≤ 85 then 1 else if temp ≤ 95 then 2 else 4

/-- The patrol scrub reads the next block of a stack (R229). -/
def execPatrolScrub (site : Nat) (ecc : Ecc) (s : State) : Host.Outcome State Fault Refusal :=
  .next (finish s (
    if !(s.stackUp site) then s
    else
      let k := s.hbm.stackTab.getD site {}
      let hpa := site * 2 ^ 36 + k.scrub * 256
      let s : State := { s with hbm := { s.hbm with stackTab := s.hbm.stackTab.set site { k with scrub := (k.scrub + 1) % 2 ^ 28 } } }
      let o := s.frameOwner (hpa / 2 ^ 21)
      match ecc with
      | .clean => s
      | .corrected => s.hbmCorrected site hpa o.1
      | .failed =>
        if o.2 ∧ !((List.range 8).any fun i => s.hbm.lost (8 * (site / 8) + i)) then
          s.raise { det := 0x0505, loc := { unit := site }, part := o.1 }
        else
          let s : State := { s with hbm := { s.hbm with poisoned := hpa / 256 :: s.hbm.poisoned } }
          s.raise { det := 0x0502, loc := { unit := site }, part := o.1, place := hpa / 2 ^ 21 }))

end Sys2Proof.Machine
end

