-- ==== Sys2Proof/Machine/Mesh.lean ====
section
/-! DEFINITION. Mesh flits at routers, the stitch links, the SRAM scrub, the router registers (R194, R195, R199-R203, R208-R211, R214, R217,
R218, R222). -/

namespace Sys2Proof.Machine

/-- A router that nothing has touched: at its reset values, VC3_SHARE at that of Table 8-7 once bring-up has set it (R221, Table 8-9). -/
def State.freshRouter (s : State) (y : Nat) : Router :=
  if s.mesh.shared then { ctrl := BitVec.ofNat 32 (0x20 + 64 * shareCode s.fuses.build y) } else {}

def State.router (s : State) (x y : Nat) : Router := s.mesh.routers.getD (physIx x y) (s.freshRouter y)

def State.updRouter (s : State) (x y : Nat) (f : Router → Router) : State :=
  { s with mesh := { s.mesh with routers := s.mesh.routers.set (physIx x y) (f (s.router x y)) } }

/-! ## Flits on their way -/

/-- A flit leaves a router over an output; one for the router itself stands there. -/
def State.fly (s : State) (x y : Nat) (o : Out) (f : Flit) : State :=
  { s with mesh := { s.mesh with flight := s.mesh.flight ++ [⟨o.step x y, o, f⟩] } }

/-- Two flits go from one source to one destination on one VC (R203). -/
def Flit.sameFlow (a b : Flit) : Bool :=
  decide (a.vc = b.vc ∧ a.srcX = b.srcX ∧ a.srcY = b.srcY ∧ a.dstX = b.dstX ∧ a.dstY = b.dstY)

/-- A flit as its sender put it on the link. -/
def Flit.sent (f : Flit) : Flit := { f with link := .clean, headLost := false, ecc := .clean }

/-- The output over which a flit comes to a router: it must stand there as the oldest of its flow (R203). One that is nowhere in flight is sent by a
unit of the router; one in flight elsewhere has not come. -/
def State.cameOver (s : State) (x y : Nat) (f : Flit) : Option Out :=
  match s.mesh.flight.find? fun m => decide (m.at_ = (x, y)) && m.flit.sameFlow f with
  | some m => if m.flit = f.sent then some m.last else none
  | none => if s.mesh.flight.any fun m => decide (m.flit = f.sent) then none else some .here

/-- A flit that arrives is on its way no more. -/
def State.land (s : State) (x y : Nat) (f : Flit) : State :=
  { s with mesh := { s.mesh with flight := s.mesh.flight.eraseP fun m => decide (m.at_ = (x, y) ∧ m.flit = f.sent) } }

/-- The link from a router over an output joins different partitions (R217). -/
def State.isFence (s : State) (x y : Nat) (o : Out) : Bool :=
  let q := o.step x y
  decide (s.regionAt x y ≠ s.regionAt q.1 q.2)

/-- Flit types whose payload is data (R218). -/
def FlitType.data : FlitType → Bool
  | .write | .readRsp | .rspList => true
  | _ => false

/-- A flit may take an output: over a fence link only VC3 flits and ACKs for them, data in cipher (R217, R218). -/
def State.mayCross (s : State) (x y : Nat) (o : Out) (f : Flit) : Bool :=
  !(s.isFence x y o) || (decide (f.vc = 3 ∨ f.type = .ack) && (!f.type.data || f.cipher))

/-- A flit dropped under R217 or R218, against its PART. -/
def State.fenceDrop (s : State) (x y : Nat) (f : Flit) : State := s.raise { det := 0x0406, loc := Loc.at x y, part := f.part }

/-- The flit leaves a router over an output, or is dropped at a fence. -/
def State.sendOut (s : State) (x y : Nat) (o : Out) (f : Flit) : State :=
  if s.mayCross x y o f then s.fly x y o f else s.fenceDrop x y f

/-- The control die's attachments (R20): flits of PART 0 come from there, or from a die steward. -/
def fromControl (x y : Nat) : Bool := decide (y = 0) && decide (20 ≤ x ∧ x < 28)

/-- A flit may be written to the tile of a router (R217). -/
def State.mayWrite (s : State) (x y : Nat) (f : Flit) : Bool :=
  if f.part = 0 then fromControl f.srcX f.srcY || decide (dieAt f.srcX f.srcY = dieAt x y) else decide (s.partAt x y = f.part)

/-- The header is well formed, else it is dropped (R199). -/
def Flit.headerOk (f : Flit) : Bool :=
  decide (f.type ≠ .reserved) && decide (f.part ≤ 64) && decide (f.dstX < 48) && decide (f.dstY < 78) && decide (f.srcX < 48) &&
    decide (f.srcY < 78) && decide (f.vc < 4)

def State.headerDrop (s : State) (x y : Nat) : State := s.raise { det := 0x0407, loc := Loc.at x y }

/-- A flit that comes to a router, and what the link's SECDED makes of it (R199): a corrected word is reported, a payload word beyond
correction poisons the flit, a header word beyond correction drops it as a device fault. A header with a reserved value is dropped. -/
def State.arrive (s : State) (x y : Nat) (f : Flit) (go : Out → Flit → State → State) : State :=
  if 48 ≤ x ∨ 78 ≤ y then s
  else
    match s.cameOver x y f with
    | none => s
    | some o =>
      let s := s.land x y f
      if f.headLost then s.raise { det := 0x0402, loc := Loc.at x y, cls := some 4 }
      else
        let s := if f.link = .corrected then s.raise { det := 0x0401, loc := Loc.at x y, part := f.part } else s
        let g : Flit := { f with link := .clean, poisoned := f.poisoned || decide (f.link = .failed) }
        if !g.headerOk then s.headerDrop x y else go o g s

/-- The output a flit takes at a router: that of R220 for traffic on its way to a port, else that of R202 and R215. -/
def State.outOf (s : State) (last : Out) (x y : Nat) (f : Flit) : Out :=
  if f.toPort.isSome then s.routePort last x y f.dstX f.dstY else s.routeFrom last x y f.dstX f.dstY

/-! ## Writes -/

/-- The lines of its block that a flit carries. -/
def Flit.lineList (f : Flit) : List Nat := (List.range 4).filter fun i => bit f.lines i

/-- The site a router answers for: north-edge routers, by the half of the die (R15). -/
def siteAt (x y : Nat) : Option Nat :=
  if y % 13 = 12 then some (if x % 12 < 6 then (dieSites (dieAt x y)).1 else (dieSites (dieAt x y)).2) else none

/-- A router owns an HPA: it is router (HPA >> 8) mod 6 of the six of its site, counted west to east (R225). -/
def ownsHpa (x y hpa : Nat) : Bool := decide (siteAt x y = some (siteOf hpa)) && decide (x % 6 = hpa / 256 % 6)

/-- SPACE and address of a READ_REQ, or of a WRITE to HBM (Table 8-6, R226). -/
def Flit.space (f : Flit) : Nat := f.target / 2 ^ 62
def Flit.addr (f : Flit) : Nat := f.target % 2 ^ 42

/-- The block is written: the flit is whole, a tile takes it under R195 and R217, an HBM block's owner, a parity page's stripe owner, under
R217, R225 and R232. -/
def State.takesWrite (s : State) (x y : Nat) (f : Flit) : Bool :=
  !f.poisoned &&
    if f.space = 1 then
      match s.pageAt f.addr with
      | some (p, _, e) => ownsHpa x y (writeBlock e f.addr) && s.blockHeld e f.addr && decide (f.part ≠ 0) && decide (p = f.part)
      | none => false
    else (s.logicalAt x y).isSome && s.mayWrite x y f && !(f.lineList.any fun i => decide (0xFC00 ≤ f.line + i))

/-- Lines of a block in its stored form written to HBM, a parity page's with its parity (R194, R226, R232, R414). A whole block is no longer
poisoned. -/
def State.hbmLines (s : State) (e : Word) (f : Flit) : State :=
  let bs := s.openBlock f.addr (fitBytes 256 f.data)
  let h := f.lineList.foldl (fun (h : HbmState) i => h.pageWrite e (f.addr % 2 ^ 21 + 64 * i) ((bs.drop (64 * i)).take 64)) s.hbm
  { s with hbm := { h with poisoned := h.poisoned.filter fun b => decide (f.lines ≠ 15 ∨ b ≠ f.addr / 256) } }

/-- Lines of a 256-byte block written under a line mask to the tile of a router, or to HBM by the router that owns the block; a poisoned flit writes
nothing, a line of the system region drops it (R194, R195, R199, R217, R226). -/
def State.meshWrite (s : State) (x y : Nat) (f : Flit) : State :=
  if f.poisoned then s.raise { det := 0x0402, loc := Loc.at x y, part := f.part }
  else if f.space = 1 then
    if s.takesWrite x y f then
      match s.pageAt f.addr with
      | some (_, _, e) => s.hbmLines e f
      | none => s
    else s.fenceDrop x y f
  else
    match s.logicalAt x y with
    | none => s.fenceDrop x y f
    | some t =>
      if !(s.mayWrite x y f) then s.fenceDrop x y f
      else if f.lineList.any fun i => decide (0xFC00 ≤ f.line + i) then s.raise { det := 0x0305, loc := Loc.at x y, part := f.part }
      else
        (s.wakeTile t).updTile t fun z =>
          z.store (f.lineList.map fun i => ((f.line + i) * 64, fitBytes 64 ((f.data.drop (64 * i)).take 64)))

/-- The ACK that a FENCE asks for, once its flit is written (R203): every earlier one of its flow has come before it. -/
def State.ackFence (s : State) (x y : Nat) (f : Flit) : State :=
  if f.fence then
    s.fly x y .here { vc := 0, type := .ack, part := f.part, dstX := f.srcX, dstY := f.srcY, srcX := x, srcY := y, tag := f.tag }
  else s

/-- A block that has reached its router is written, and its FENCE answered. -/
def State.deliverBlock (s : State) (x y : Nat) (f : Flit) : State :=
  if s.takesWrite x y f then (s.meshWrite x y f).ackFence x y f else s.meshWrite x y f

/-- A WRITE at a router: written where it is addressed, sent on elsewhere (R203, R217). One for a port leaves the mesh there (R220). -/
def State.writeAt (s : State) (x y : Nat) (f : Flit) : State :=
  s.arrive x y f fun last f s =>
    match s.outOf last x y f with
    | .here => if f.toPort.isSome then s else s.deliverBlock x y f
    | o => s.sendOut x y o f

def execWriteFlit (x y : Nat) (flit : Flit) (s : State) : Host.Outcome State Fault Refusal :=
  .next (finish s (if flit.type = .write ∨ flit.type = .reserved then s.writeAt x y flit else s))

/-! ## Merged reads (R208-R211) -/

/-- COUNT lies in 1-16, the target is well formed, reserved fields are zero, and a read travels on VC2 or VC3 (R208, Table 8-6, detector 0x0304). -/
def Flit.listOk (f : Flit) : Bool :=
  decide (1 ≤ f.reqs.length ∧ f.reqs.length ≤ 16) && decide (f.space ≤ 1) && decide (f.target / 2 ^ 42 % 2 ^ 20 = 0) &&
    decide (f.addr % 256 = 0) && (decide (f.space = 1) || decide (f.key = 0)) && !f.extra && decide (f.vc = 2 ∨ f.vc = 3)

/-- Two requests qualify to merge (R209). -/
def Flit.merges (a b : Flit) : Bool :=
  decide (a.vc = b.vc) && decide (a.part = b.part) && decide (a.dstX = b.dstX) && decide (a.dstY = b.dstY) && decide (a.target = b.target) &&
    decide (a.key = b.key) && !a.noMerge && !b.noMerge && decide (a.reqs.length + b.reqs.length ≤ 16)

/-- The arriving request's entries join the oldest waiting request that qualifies. -/
def mergeInto (f : Flit) : List Flit → Option (List Flit)
  | [] => none
  | w :: t => if w.merges f then some ({ w with reqs := w.reqs ++ f.reqs } :: t) else (mergeInto f t).map fun r => w :: r

/-- The block a request names, read by its owner; none where the owner refuses (R208, R217, R225). A block of HBM comes in its stored form, rebuilt
by the stripe owner where its stack is lost (R218, R233, R414). -/
def State.ownerRead (s : State) (x y : Nat) (f : Flit) : Option (List Byte × Bool) :=
  if f.space = 0 then
    match s.logicalAt x y with
    | some t => if s.partAt x y = f.part ∧ f.part ≠ 0 ∧ f.addr + 256 ≤ 0xFC00 * 64 then some ((s.tile t).sram.read f.addr 256, false) else none
    | none => none
  else
    match s.pageAt f.addr with
    | some (p, _, e) =>
      if ownsHpa x y (s.hbm.readBlock e f.addr) && s.blockHeld e f.addr && decide (p = f.part) && decide (f.part ≠ 0) then
        some (s.sealBlock f.addr ((List.range 256).map fun i => s.hbm.pageByte e (f.addr % 2 ^ 21 + i)), true)
      else none
    | none => none

/-- The owner answers with one read: READ_RSP for one requester, a pair for several (R210). A corrected word of tile SRAM is reported, a word
beyond correction returns no data to any requester (R194). -/
def State.answerRead (s : State) (x y : Nat) (f : Flit) : State :=
  match s.ownerRead x y f with
  | none => s.fenceDrop x y f
  | some (data, cipher) =>
    let r : Flit := { f with type := .rspList, srcX := x, srcY := y, dstX := 0, dstY := 0, data := data, cipher := cipher, lines := 15,
                             fence := false, ecc := .clean, poisoned := cipher && s.hbm.poisoned.contains (f.addr / 256) }
    let s := if cipher && s.hbm.lost (siteOf f.addr) then s.raise { det := 0x0505, loc := { unit := siteOf f.addr }, part := f.part } else s
    let s := if f.space = 0 ∧ f.ecc = .corrected then s.raise { det := 0x0301, loc := Loc.at x y, part := f.part } else s
    if f.space = 0 ∧ f.ecc = .failed then s.raise { det := 0x0302, loc := Loc.at x y, part := f.part }
    else
      match f.reqs with
      | [q] => s.fly x y .here { r with type := .readRsp, dstX := q.x, dstY := q.y, line := q.line, tag := q.tag, reqs := [] }
      | _ => s.fly x y .here r

/-- The neighbours of a router on the grid, with the output that leads from each to it. -/
def neighbours (x y : Nat) : List ((Nat × Nat) × Out) :=
  (if x = 0 then [] else [((x - 1, y), Out.east)]) ++ (if y = 0 then [] else [((x, y - 1), Out.north)]) ++
    (if x < 47 then [((x + 1, y), Out.west)] else []) ++ (if y < 77 then [((x, y + 1), Out.south)] else [])

/-- The neighbour at which a request waits for the output to a router, as the oldest of its flow (R203, R209). -/
def State.waitsAt (s : State) (x y : Nat) (f : Flit) : Option ((Nat × Nat) × Out) :=
  (neighbours x y).find? fun q =>
    decide ((s.router q.1.1 q.1.2).waiting.find? f.sameFlow = some f.sent) &&
      [Out.here, .north, .south, .east, .west].any fun last => decide (s.routeFrom last q.1.1 q.1.2 f.dstX f.dstY = q.2)

/-- A request leaves the router it waited at: it stands at this router now. -/
def State.leaveWaiting (s : State) (x y : Nat) (f : Flit) : State :=
  match s.waitsAt x y f with
  | some q =>
    let s := s.updRouter q.1.1 q.1.2 fun r => { r with waiting := r.waiting.erase f.sent }
    { s with mesh := { s.mesh with flight := ⟨(x, y), q.2, f.sent⟩ :: s.mesh.flight } }
  | none => s

/-- A counter field held at its ceiling. -/
def bump24 (c : BitVec 24) (n : Nat) : BitVec 24 := BitVec.ofNat 24 (sat 24 (c.toNat + n))

/-- A READ_REQ at a router: the owner answers it, it merges, or it waits for its output (R209, R210, R217). -/
def State.readAt (s : State) (last : Out) (x y : Nat) (f : Flit) : State :=
  if !f.listOk then s.raise { det := 0x0304, loc := Loc.at x y, part := f.part }
  else
    match s.routeFrom last x y f.dstX f.dstY with
    | .here => s.answerRead x y f
    | o =>
      if !(s.mayCross x y o f) then s.fenceDrop x y f
      else
        let r := s.router x y
        match if bit r.ctrl.toNat 5 then mergeInto f.sent r.waiting else none with
        | some w => s.updRouter x y fun r => { r with waiting := w, merges := bump24 r.merges 1 }
        | none => s.updRouter x y fun r => { r with waiting := r.waiting ++ [f.sent] }

def execReadReq (x y : Nat) (flit : Flit) (s : State) : Host.Outcome State Fault Refusal :=
  .next (finish s (
    if flit.type = .readReq ∨ flit.type = .reserved then
      (s.leaveWaiting x y flit).arrive x y flit fun last f s => s.readAt last x y f
    else s))

/-- The output that route() gives for a requester. -/
def State.outFor (s : State) (x y : Nat) (q : Requester) : Out := s.route x y q.x q.y

/-- The copy for one group: a READ_RSP for one requester, a new pair for several (R210). -/
def groupCopy (f : Flit) (g : List Requester) : Flit :=
  match g with
  | [q] => { f with type := .readRsp, dstX := q.x, dstY := q.y, line := q.line, tag := q.tag, reqs := [] }
  | _ => { f with reqs := g }

/-- One READ_REQ per requester of an unmerged group, toward the owner (R211). -/
def unmerged (f : Flit) (g : List Requester) : List Flit :=
  g.map fun q => { f with type := .readReq, dstX := f.srcX, dstY := f.srcY, srcX := q.x, srcY := q.y, noMerge := true, reqs := [q],
                          data := [], cipher := false, line := q.line, tag := q.tag }

/-- An output holds a credit for a flit: a fact of timing that the manual leaves open (log 20). -/
def State.credit (s : State) : Bool × State :=
  let v := s.takeFree
  (v.1.getLsbD 0, v.2)

/-- One output of a fork (R211): normal arbitration with a credit, the fork buffer, the reissue queue; none when the pair waits. -/
def State.forkOut (s : State) (x y : Nat) (f : Flit) (o : Out) (g : List Requester) : Option State :=
  let c := groupCopy f g
  let r := s.router x y
  let queued := r.fork.any fun e => decide (e.1 = o ∧ e.2.vc = f.vc)
  let k := s.credit
  let s := k.2
  if !(s.mayCross x y o c) then some (s.fenceDrop x y c)
  else if k.1 && !queued then some (s.fly x y o c)
  else if r.fork.length < 32 ∧ !(bit r.ctrl.toNat 4) then
    some (s.updRouter x y fun r =>
      { r with fork := r.fork ++ [(o, c)], hwm := BitVec.ofNat 6 (max r.hwm.toNat (r.fork.length + 1)) })
  else if r.reissue.length + g.length ≤ 16 then
    some (s.updRouter x y fun r => { r with reissue := r.reissue ++ unmerged f g, unmerges := bump24 r.unmerges g.length })
  else none

/-- A pair whose requesters all lie over one output: no split, so that it takes its credit or waits (R211). -/
def State.passOn (s : State) (x y : Nat) (f : Flit) (o : Out) : State :=
  let c := groupCopy f f.reqs
  let queued := (s.router x y).fork.any fun e => decide (e.1 = o ∧ e.2.vc = f.vc)
  let k := s.credit
  if !(k.2.mayCross x y o c) then k.2.fenceDrop x y c
  else if k.1 && !queued then k.2.fly x y o c else k.2.fly x y .here f

/-- The block as its requester's ferry has it: decrypted where it came in stored form (R218). The model leaves the request's TARGET in the
response, as the ferry's own record of what it asked for. -/
def State.received (s : State) (f : Flit) : Flit :=
  { f with lines := 15, target := 0, data := if f.cipher && decide (f.space = 1) then s.openBlock f.addr f.data else f.data }

/-- The requesters of the router's own tile receive the block (R210). -/
def State.localGroup (s : State) (x y : Nat) (f : Flit) (g : List Requester) : State :=
  g.foldl (fun s q => s.meshWrite x y { s.received f with type := .readRsp, line := q.line, tag := q.tag, reqs := [] }) s

/-- A RSP_LIST pair at a router. Groups that could not leave stay in the pair, which waits (R211). -/
def State.forkAt (s : State) (x y : Nat) (f : Flit) : State :=
  if !f.listOk then s.raise { det := 0x0304, loc := Loc.at x y, part := f.part }
  else
    let group := fun (s : State) (o : Out) => f.reqs.filter fun q => decide (s.outFor x y q = o)
    let outs := [Out.north, .south, .east, .west].filter fun o => !(group s o).isEmpty
    match (group s .here).isEmpty, outs with
    | true, [o] => s.passOn x y f o
    | _, _ =>
      let s := s.localGroup x y f (group s .here)
      let r := outs.foldl (fun (acc : State × List Requester) o =>
        match acc.1.forkOut x y f o (group acc.1 o) with
        | some t => (t, acc.2)
        | none => (acc.1, acc.2 ++ group acc.1 o)) (s, [])
      if r.2.isEmpty then r.1 else r.1.fly x y .here { f with reqs := r.2 }

def execRspList (x y : Nat) (flit : Flit) (s : State) : Host.Outcome State Fault Refusal :=
  .next (finish s (
    if flit.type = .rspList ∨ flit.type = .reserved then s.arrive x y flit fun _ f s => s.forkAt x y f else s))

/-- A READ_RSP at a router: written at its LINE by the requester, sent on elsewhere (R210). -/
def State.responseAt (s : State) (x y : Nat) (f : Flit) : State :=
  s.arrive x y f fun last f s =>
    match s.routeFrom last x y f.dstX f.dstY with
    | .here => s.deliverBlock x y (s.received f)
    | o => s.sendOut x y o f

def execReadRsp (x y : Nat) (flit : Flit) (s : State) : Host.Outcome State Fault Refusal :=
  .next (finish s (if flit.type = .readRsp ∨ flit.type = .reserved then s.responseAt x y flit else s))

/-- The oldest buffered copy whose output gains a credit leaves (R211). -/
def execForkBuffer (x y : Nat) (s : State) : Host.Outcome State Fault Refusal :=
  .next (finish s (
    match (s.router x y).fork with
    | [] => s
    | (o, c) :: rest => (s.updRouter x y fun r => { r with fork := rest }).fly x y o c))

/-- The reissue queue injects its oldest request toward the owner (R211). -/
def execReissue (x y : Nat) (s : State) : Host.Outcome State Fault Refusal :=
  .next (finish s (
    match (s.router x y).reissue with
    | [] => s
    | q :: rest => (s.updRouter x y fun r => { r with reissue := rest }).readAt .here x y q))

/-- The router that answers the FENCE of a descriptor, that of its last destination block: the destination tile's, or the one that owns the
block in HBM (R203, R225). -/
def State.fenceFrom (s : State) (p t n : Nat) (x y : Nat) : Bool :=
  let d := ((s.tile t).slot n).desc
  if d.dst = 2 then
    let u := bits d.dstAddr 47 32
    decide (s.place (u % 48) (u / 48) = some (x, y))
  else
    let va := ((d.dstRun (d.n1 * d.n2 - 1)).toNat + d.dstRow - 1) / 256 * 256
    match s.part p with
    | some q =>
      match q.hpa va with
      | some h => ownsHpa x y (writeBlock (q.pte (va / 2 ^ 21)) h)
      | none => false
    | none => false

/-- The ACK for a FENCE reaches its source: the descriptor whose slot is the TAG is DONE (R203, Table 9-11). -/
def State.fenceAckAt (s : State) (x y : Nat) (f : Flit) : State :=
  s.arrive x y f fun last f s =>
    match s.routeFrom last x y f.dstX f.dstY with
    | .here =>
      match s.logicalAt x y with
      | some t =>
        if s.ownerOf t = f.part ∧ f.part ≠ 0 then
          if s.fenceFrom f.part t f.tag f.srcX f.srcY then s.ferryAcked f.part t f.tag else s
        else s.fenceDrop x y f
      | none => s.fenceDrop x y f
    | o => s.sendOut x y o f

def execFenceAck (x y : Nat) (flit : Flit) (s : State) : Host.Outcome State Fault Refusal :=
  .next (finish s (if flit.type = .ack ∨ flit.type = .reserved then s.fenceAckAt x y flit else s))

/-! ## Stitch links -/

/-- Location of a stitch link: the die on its lower-numbered side, the control die for its eight links (R20, R336). -/
def linkLoc (n : Nat) : Loc :=
  let e := n / 12
  { die := if e < 20 then e else if e < 38 then (e - 20) / 3 * 4 + (e - 20) % 3 else 0x40, unit := n }

/-- A CRC error replays the flit and those behind it in the replay buffer of 32 (R200, R201). -/
def execStitchCrc (link flitsSent : Nat) (s : State) : Host.Outcome State Fault Refusal :=
  .next (finish s (
    let l := s.mesh.links.getD link {}
    if 464 ≤ link ∨ l.disabled then s
    else
      ({ s with mesh := { s.mesh with links := s.mesh.links.set link { l with replays := l.replays + min flitsSent 32 } } }).raise
        { det := 0x0403, loc := linkLoc link, place := link }))

/-- A lane is repaired, or the third failure disables the link (R200, R201). -/
def execStitchLane (link : Nat) (s : State) : Host.Outcome State Fault Refusal :=
  .next (finish s (
    let l := s.mesh.links.getD link {}
    if 464 ≤ link ∨ l.disabled then s
    else
      let s : State := { s with mesh := { s.mesh with links := s.mesh.links.set link { l with lanes := l.lanes + 1, disabled := decide (2 ≤ l.lanes) } } }
      s.raise { det := 0x0404, loc := linkLoc link, place := link }))

/-! ## SRAM scrub and router registers -/

/-- The background scrub reads the next line of a tile whose memory is clocked (R21, R31, R194). -/
def execSramScrub (x y : Nat) (ecc : Ecc) (s : State) : Host.Outcome State Fault Refusal :=
  .next (finish s (
    if 48 ≤ x ∨ 78 ≤ y ∨ s.unitsOff x y then s
    else
      let s : State := { s with mesh := { s.mesh with scrub := s.mesh.scrub.set (physIx x y) ((s.mesh.scrub.getD (physIx x y) 0 + 1) % 65536) } }
      match ecc with
      | .clean => s
      | .corrected => s.raise { det := 0x0301, loc := Loc.at x y, part := s.partAt x y }
      | .failed => s.raise { det := 0x0302, loc := Loc.at x y, part := s.partAt x y }))

/-- ROUTER_COUNT read: FORK_HWM restarts (Table 8-10). -/
def execRouterCount (x y : Nat) (s : State) : Host.Outcome State Fault Refusal :=
  .next (finish s (
    { (s.updRouter x y fun r => { r with hwm := 0 }) with readOut := (s.router x y).count }))

end Sys2Proof.Machine
end

