-- ==== Sys2Proof/Machine/Tile.lean ====
section
/-! DEFINITION. Instructions of the array, the vector engine, the Riffle unit and the draw unit of one tile (chapters 2, 3, 5, 7; R355-R357,
R359). -/

namespace Sys2Proof.Machine

/-! ## The array -/

/-- A chain error: an accumulation has grown too long for CANONICAL, and the job ends (R95). -/
def State.chainLong (s : State) (p t : Nat) : State := (s.raise { det := 0x0410, loc := s.locOf t, part := p }).endJob p .badFormat

/-- An array operation on a tile; an accumulation that has grown too long for CANONICAL ends the job (R95). -/
def State.arrayOp (s : State) (p t : Nat) (f : ArrayFx → ArrayFx) : State :=
  let x := s.tile t
  let r := f { arr := x.array, sram := x.sram }
  let s := s.setTile t ({ x with array := r.arr, sram := r.sram }.flag r.flags)
  if r.arr.tooLong && !x.array.tooLong then s.chainLong p t else s

/-- The sequencer runs (R135). -/
def SeqState.active (q : SeqState) : Bool := decide (q.phase = .check ∨ q.phase = .prime ∨ q.phase = .run ∨ q.phase = .energy)

/-- The sequencer halts: SU_MODE is clear, and the pairs and their counts are at zero (R135). -/
def TileState.seqStop (x : TileState) (phase : SeqPhase) : TileState :=
  let a : ArrayState := { x.array with pairs := List.replicate 4096 Pair.zero, termCnt := 0, segCnt := 0, accLong := false, slotEmpty := true,
                                       slotSeen := [], slotOpen := false, ctrl := x.array.ctrl &&& 0xFFFFFFEF }
  { x with array := a, seq := { x.seq with phase := phase, waitEnd := false, traceWait := false, gate := none, due := none } }

/-- A detector stops a sequencer that runs: STATE FAULT (R170). -/
def TileState.seqHalt (x : TileState) : TileState := if x.seq.active then x.seqStop .fault else x

/-- The sequencer does not hold the array (R150). -/
def TileState.arrayFree (x : TileState) : Bool := !x.array.stopped && decide (x.seq.phase = .idle ∨ x.seq.phase = .halt)

/-- MMA (R60, R355): its issues are made, older ones retiring as the pipeline fills. -/
def execMma (tile : Nat) (w0 w1 : Word) (s : State) : Host.Outcome State Fault Refusal :=
  .next (finish s (
    s.dispatchPlain tile (mmaOk (ins 0x01 false [w0, w1]) && (s.tile tile).arrayFree) fun p s =>
      s.arrayOp p tile (ArrayFx.mma (s.canonical p) w0 w1)))

/-- The detector of a failed check (Table 17-2). -/
def checkDet : ArrayCheck → Option Nat
  | .pass => none
  | .accParity => some 0x0101
  | .termMismatch => some 0x0102
  | .sumResidue => some 0x0103

/-- Array dispatch stops, and nothing that is still to be drained is written: the job ends (R87). -/
def TileState.arrayStop (x : TileState) : TileState := { x with array := { x.array with stopped := true, drains := [] } }

/-- RETIRE (R62): the parity of the registers and the counters is checked as the issue retires (R87). -/
def execRetire (tile : RetireAt) (s : State) : Host.Outcome State Fault Refusal :=
  .next (finish s (
    let t := tile.tile
    let p := s.ownerOf t
    match checkDet tile.check with
    | some det =>
      if (s.tile t).array.issues = [] then s
      else (s.updTile t TileState.arrayStop).raise { det := det, loc := s.locOf t, part := p }
    | none => s.arrayOp p t (ArrayFx.retire (s.canonical p))))

/-- SPILL_COMBINE (R68). -/
def execSpillCombine (tile : Nat) (s : State) : Host.Outcome State Fault Refusal :=
  .next (finish s (s.arrayOp (s.ownerOf tile) tile ArrayFx.spillCombine))

/-- ACC_LD (R81, R82). -/
def execAccLd (tile : Nat) (w0 : Word) (s : State) : Host.Outcome State Fault Refusal :=
  .next (finish s (
    let x := s.tile tile
    s.dispatchPlain tile (accLdOk [accMode x.array.ctrl] (ins 0x02 false [w0]) && x.arrayFree) fun p s =>
      s.arrayOp p tile (ArrayFx.accLd (s.canonical p) w0)))

/-- DRAIN (R73-R76): it waits at dispatch while both shadow buffers are taken. -/
def execDrain (tile : Nat) (stepIdx : Bool) (w0 w1 w2 : Word) (s : State) : Host.Outcome State Fault Refusal :=
  .next (finish s (
    let x := s.tile tile
    let ok := drainOk [accMode x.array.ctrl] (ins 0x03 stepIdx [w0, w1, w2])
    s.dispatch tile (ok && x.arrayFree && decide (x.array.drains.length < 2)) fun p iseq s =>
      s.arrayOp p tile (ArrayFx.drain w0 w1 (s.indexWord p stepIdx w2) iseq)))

/-- A drain under RS has taken the items of its 64 rows (R79, R126). -/
def TileState.drainItems (w : DrainWords) (x : TileState) : TileState :=
  (List.range 64).foldl (fun x i => x.useItems w.stream (w.indexBase + i * w.rowStride) 2 64) x

/-- DRAIN_DONE (R78-R80, R85): the oldest drain that has its snapshot writes its result and frees its buffer. E is read and the result
written here, in one step, whatever later instructions of the stream have done to those lines meanwhile (DESIGN CHOICE, log 115). -/
def State.drainDone (s : State) (p t : Nat) : State :=
  let x := s.tile t
  match x.array.drains with
  | [] => s
  | d :: rest =>
    match d.shadow with
    | none => s
    | some ps =>
      let w := DrainWords.ofWords d.w0 d.w1 d.w2
      let rs := w.cvt.mode = .rs
      if rs ∧ x.riffleStop then s
      else
        let r := drainWrites w (accMode d.ctrl) (fun i => riffleBits x.seed w.stream i 2) x.sram ps
        let sum := s.contrib p t unitDrain d.iseq.toNat w.dstLine 0 r.1
        let y := { x with array := { x.array with drains := rest, drainRegs := drainRegsDrop x.array.drainRegs (!rest.isEmpty) } }
        let y := if rs then y.drainItems w else y
        (s.setTile t ((y.store r.1).flag r.2)).completed p t d.iseq.toNat unitDrain sum

def execDrainDone (tile : Nat) (s : State) : Host.Outcome State Fault Refusal :=
  .next (finish s (s.drainDone (s.ownerOf tile) tile))

/-- ACC_CTRL (R71). -/
def execAccCtrl (tile : Nat) (v : BitVec 32) (s : State) : Host.Outcome State Fault Refusal :=
  .next (finish s (
    s.dispatchPlain tile (accCtrlOk (ins 0x04 false [v.setWidth 64])) fun p s =>
      s.arrayOp p tile (ArrayFx.setCtrl v)))

/-! ## The vector engine -/

/-- What a vector instruction writes, its flags, its digest; its words stand in the vector-queue registers, and the Riffle words it has used
leave the buffer (R122, R126, R273). -/
def State.vectorOut (s : State) (p t : Nat) (iseq : BitVec 32) (ws : List Word) (dstLine : Nat) (used : TileState → TileState)
    (o : VectorOut) : State :=
  let sum := s.contrib p t unitVector iseq.toNat dstLine 0 o.writes
  let s := s.updTile t fun x => ({ used x with vq := ws }.store o.writes).flag o.flags
  s.completed p t iseq.toNat unitVector sum

/-- log2 of the item width of a distribution (Table 5-7). -/
def distWidth (dist param : Nat) : Nat :=
  match dist with
  | 0 => (lbOf (bits param 6 0)).getD 0
  | 3 | 6 | 7 => 6
  | 5 => 4
  | _ => 5

/-- A VRAND of one distribution (R122, R123, R359). -/
def State.vrand (s : State) (t : Nat) (stepIdx : Bool) (w0 w1 w2 w3 : Word) (dist : Nat)
    (run : Word → Word → Word → Word → Nat → VectorOut) : State :=
  let ok := vrandOk (ins 0x06 stepIdx [w0, w1, w2, w3]) && decide (bits w0.toNat 63 60 = dist)
  s.dispatch t (ok && !(s.tile t).riffleStop) fun p iseq s =>
    let i := s.indexWord p stepIdx w2
    let v := VrandWords.ofWords w0 w1 i w3
    s.vectorOut p t iseq [w0, w1, i, w3] v.dstLine (TileState.useItems v.stream v.indexBase (distWidth dist v.param) v.count)
      (run w0 w1 i w3 (s.tile t).seed)

def execRawBits (tile : Nat) (stepIdx : Bool) (w0 w1 w2 w3 : Word) (s : State) : Host.Outcome State Fault Refusal :=
  .next (finish s (s.vrand tile stepIdx w0 w1 w2 w3 0 rawRun))
def execUnif01 (tile : Nat) (stepIdx : Bool) (w0 w1 w2 w3 : Word) (s : State) : Host.Outcome State Fault Refusal :=
  .next (finish s (s.vrand tile stepIdx w0 w1 w2 w3 1 (distRun 5 unif01Of)))
def execUnifOpen (tile : Nat) (stepIdx : Bool) (w0 w1 w2 w3 : Word) (s : State) : Host.Outcome State Fault Refusal :=
  .next (finish s (s.vrand tile stepIdx w0 w1 w2 w3 2 (distRun 5 unifOpenOf)))
def execUnif0164 (tile : Nat) (stepIdx : Bool) (w0 w1 w2 w3 : Word) (s : State) : Host.Outcome State Fault Refusal :=
  .next (finish s (s.vrand tile stepIdx w0 w1 w2 w3 3 (distRun 6 unif64Of)))
def execUintBelow (tile : Nat) (stepIdx : Bool) (w0 w1 w2 w3 : Word) (s : State) : Host.Outcome State Fault Refusal :=
  .next (finish s (s.vrand tile stepIdx w0 w1 w2 w3 4 (distRun 5 uintBelowOf)))
def execBernoulli (tile : Nat) (stepIdx : Bool) (w0 w1 w2 w3 : Word) (s : State) : Host.Outcome State Fault Refusal :=
  .next (finish s (s.vrand tile stepIdx w0 w1 w2 w3 5 bernoulliRun))
def execNormalDraw (tile : Nat) (stepIdx : Bool) (w0 w1 w2 w3 : Word) (s : State) : Host.Outcome State Fault Refusal :=
  .next (finish s (s.vrand tile stepIdx w0 w1 w2 w3 6 (distRun 6 normalOf)))
def execTruncNormal (tile : Nat) (stepIdx : Bool) (w0 w1 w2 w3 : Word) (s : State) : Host.Outcome State Fault Refusal :=
  .next (finish s (s.vrand tile stepIdx w0 w1 w2 w3 7 (distRun 6 truncNormalOf)))
def execExponentialDraw (tile : Nat) (stepIdx : Bool) (w0 w1 w2 w3 : Word) (s : State) : Host.Outcome State Fault Refusal :=
  .next (finish s (s.vrand tile stepIdx w0 w1 w2 w3 8 (distRun 5 exponentialOf)))
def execGumbelDraw (tile : Nat) (stepIdx : Bool) (w0 w1 w2 w3 : Word) (s : State) : Host.Outcome State Fault Refusal :=
  .next (finish s (s.vrand tile stepIdx w0 w1 w2 w3 9 (distRun 5 gumbelOf)))

/-- A VOP of one operation (R357, R359). An RS result waits while the tile delivers no Riffle words (R130). -/
def State.vop (s : State) (t : Nat) (stepIdx : Bool) (w0 w1 w2 w3 : Word) (op : Nat)
    (run : Word → Word → Word → Word → Nat → Mem → VectorOut) : State :=
  let ok := vopOk (ins 0x0A stepIdx [w0, w1, w2, w3]) && decide (bits w0.toNat 63 60 = op)
  let stalls := (s.tile t).riffleStop && decide ((VopWords.ofWords w0 w1 w2 w3).cvt.mode = .rs)
  s.dispatch t (ok && !stalls) fun p iseq s =>
    let i := s.indexWord p stepIdx w3
    let v := VopWords.ofWords w0 w1 w2 i
    s.vectorOut p t iseq [w0, w1, w2, i] v.dstLine
      (if v.cvt.mode = .rs then TileState.useItems v.stream v.indexBase 2 v.count else id)
      (run w0 w1 w2 i (s.tile t).seed (s.tile t).sram)

def execAddElems (tile : Nat) (stepIdx : Bool) (w0 w1 w2 w3 : Word) (s : State) : Host.Outcome State Fault Refusal :=
  .next (finish s (s.vop tile stepIdx w0 w1 w2 w3 0 (vopRun .add)))
def execSubElems (tile : Nat) (stepIdx : Bool) (w0 w1 w2 w3 : Word) (s : State) : Host.Outcome State Fault Refusal :=
  .next (finish s (s.vop tile stepIdx w0 w1 w2 w3 1 (vopRun .sub)))
def execMulElems (tile : Nat) (stepIdx : Bool) (w0 w1 w2 w3 : Word) (s : State) : Host.Outcome State Fault Refusal :=
  .next (finish s (s.vop tile stepIdx w0 w1 w2 w3 2 (vopRun .mul)))
def execFma (tile : Nat) (stepIdx : Bool) (w0 w1 w2 w3 : Word) (s : State) : Host.Outcome State Fault Refusal :=
  .next (finish s (s.vop tile stepIdx w0 w1 w2 w3 3 (vopRun .fma)))
def execMaximum (tile : Nat) (stepIdx : Bool) (w0 w1 w2 w3 : Word) (s : State) : Host.Outcome State Fault Refusal :=
  .next (finish s (s.vop tile stepIdx w0 w1 w2 w3 4 (vopRun .max)))
def execMinimum (tile : Nat) (stepIdx : Bool) (w0 w1 w2 w3 : Word) (s : State) : Host.Outcome State Fault Refusal :=
  .next (finish s (s.vop tile stepIdx w0 w1 w2 w3 5 (vopRun .min)))
def execCvt (tile : Nat) (stepIdx : Bool) (w0 w1 w2 w3 : Word) (s : State) : Host.Outcome State Fault Refusal :=
  .next (finish s (s.vop tile stepIdx w0 w1 w2 w3 6 (vopRun .cvt)))
def execCadd (tile : Nat) (stepIdx : Bool) (w0 w1 w2 w3 : Word) (s : State) : Host.Outcome State Fault Refusal :=
  .next (finish s (s.vop tile stepIdx w0 w1 w2 w3 7 (fun a b c d _ m => caddRun a b c d m)))
def execDivElems (tile : Nat) (stepIdx : Bool) (w0 w1 w2 w3 : Word) (s : State) : Host.Outcome State Fault Refusal :=
  .next (finish s (s.vop tile stepIdx w0 w1 w2 w3 8 (vopRun .div)))
def execSqrtElems (tile : Nat) (stepIdx : Bool) (w0 w1 w2 w3 : Word) (s : State) : Host.Outcome State Fault Refusal :=
  .next (finish s (s.vop tile stepIdx w0 w1 w2 w3 9 (vopRun .sqrt)))
def execExpElems (tile : Nat) (stepIdx : Bool) (w0 w1 w2 w3 : Word) (s : State) : Host.Outcome State Fault Refusal :=
  .next (finish s (s.vop tile stepIdx w0 w1 w2 w3 10 (vopRun .exp)))
def execLogElems (tile : Nat) (stepIdx : Bool) (w0 w1 w2 w3 : Word) (s : State) : Host.Outcome State Fault Refusal :=
  .next (finish s (s.vop tile stepIdx w0 w1 w2 w3 11 (vopRun .log)))

/-! ## The Riffle unit -/

/-- A lane delivers a word into the buffer (R126, R127). The check lane and its idle slots find nothing as long as no detector fires:
what they recompute is what the lane delivered (R130, R133). -/
def execRiffleWord (tile : Nat) (stream : BitVec 32) (index : Word) (s : State) : Host.Outcome State Fault Refusal :=
  .next (finish s (
    s.updTile tile fun x =>
      if x.riffleStop ∨ 4096 ≤ x.riffleBuf.length then x
      else
        { x with riffleBuf := x.riffleBuf ++ [⟨stream, index, BitVec.ofNat 64 (riffleWord x.seed stream.toNat index.toNat)⟩] }))

/-! ## The draw unit -/

/-- The contributions of a DRAW's writes: its sequence records, the only writes of four bytes, count from SEQ_LINE with the
mark, everything else from OUT_LINE; a block that several rows write contributes once (R273, Table 10-5). -/
def State.drawSum (s : State) (p t outLine seqLine : Nat) (iseq : BitVec 32) (ws : List (Nat × List Byte)) : Word :=
  let isSeq := fun (w : Nat × List Byte) => decide (w.2.length = 4)
  s.contrib p t unitDraw iseq.toNat outLine 0 (ws.filter fun w => !isSeq w) +
    s.contrib p t unitDraw iseq.toNat seqLine (2 ^ 63) (ws.filter isSeq)

/-- Bytes that an instruction which has been dispatched and is not complete will still write into the tile's SRAM (R176). -/
def TileState.writesAhead (x : TileState) : List (Nat × Nat) :=
  (x.array.drains.flatMap fun d =>
      let w := DrainWords.ofWords d.w0 d.w1 d.w2
      (w.dstLine * 64, w.dst.endAddr) :: if accMode d.ctrl = 0 then [] else [(w.indexAddr, w.indexAddr + 16384)]) ++
    (x.chains.map fun e => (e.words.dstLine * 64, e.words.dstLine * 64 + e.words.bytes)) ++
    (x.ferry.slots.filterMap fun e =>
      let d := e.2.desc
      if (e.2.phase = .run ∨ e.2.phase = .faultWait) ∧ d.dst = 0 then
        let rs := (List.range (d.n1 * d.n2)).map fun r => (d.dstRun r).toNat
        some (rs.foldl min (d.dstRun 0).toNat, rs.foldl max 0 + d.dstRow)
      else none) ++
    match x.seq.copy with
    | some c =>
      if x.seq.phase = .idle ∨ x.seq.phase = .halt ∨ x.seq.phase = .fault then []
      else if c.ctl.dense then [(0, 0xFC00 * 64)]
      else [(c.ctl.stateLine * 64, c.ctl.stateLine * 64 + c.dirs.foldl (fun n d => max n (d.slotFirst + d.slotCount)) 0),
            (c.ctl.traceLine * 64, c.ctl.traceLine * 64 + 32 * c.ctl.traceCap)]
    | none => []

/-- Two byte ranges, each by its start and its end, have a byte in common. -/
def bytesMeet (a b : Nat × Nat) : Bool := decide (a.1 < b.2) && decide (b.1 < a.2)

/-- A DRAW may read its sources: no earlier instruction still writes them (R176). -/
def TileState.drawReady (d : DrawWords) (x : TileState) : Bool := !(d.sources.any fun r => x.writesAhead.any (bytesMeet r))

/-- The next row of the DRAW in progress, decided on the bytes m: it writes its records, takes its Riffle items and counts itself. A row that
raises 0x0221 stops the DRAW and writes nothing; what the rows before it have written counts in the step digest (R126, R177, R191, R192,
R273). -/
def State.drawRow (s : State) (p t : Nat) (d : DrawWords) (m : Mem) : State :=
  let x := s.tile t
  let r := x.drawRows.toNat
  let o := d.row x.seed m r
  let i := d.items m r
  let hit := fun (s : State) => match o.raise with
    | some det => s.raise { det := det, loc := s.locOf t, part := p }
    | none => s
  if o.raise = some 0x0221 then
    let c := s.drawSum p t d.outLine d.seqLine x.drawIseq x.drawWrites
    hit (s.updTile t fun y => { y.flag o.flags with acc := y.acc + c, drawBusy := false, drawWrites := [] })
  else
    (hit s).updTile t fun y =>
      if y.drawBusy then
        { ((y.useItems i.1 i.2.1 i.2.2.1 i.2.2.2).store o.writes).flag o.flags with
            drawRows := y.drawRows + 1, drawWrites := y.drawWrites ++ o.writes }
      else y

/-- Up to n further rows of the DRAW in progress (R178, R191). -/
def State.drawRows (p t : Nat) (d : DrawWords) : Nat → State → State
  | 0, s => s
  | n + 1, s =>
    let x := s.tile t
    if x.drawBusy && decide (x.drawRows.toNat < d.nrows) then State.drawRows p t d n (s.drawRow p t d x.sram) else s

/-- A DRAW whose rows are all done is complete (R273, R276). -/
def State.drawEnd (s : State) (p t : Nat) (d : DrawWords) : State :=
  let x := s.tile t
  if x.drawBusy && decide (d.nrows ≤ x.drawRows.toNat) then
    let sum := s.drawSum p t d.outLine d.seqLine x.drawIseq x.drawWrites
    (s.updTile t fun y => { y with drawBusy := false, drawWrites := [] }).completed p t x.drawIseq.toNat unitDraw sum
  else s

/-- The DRAW in progress may go on: its partition runs and Riffle delivers (R130, R191). -/
def State.drawMay (s : State) (t : Nat) : Bool :=
  (match s.part (s.ownerOf t) with
   | some p => p.dispatching
   | none => false) && !(s.tile t).riffleStop

/-- A DRAW of one phase: dispatched, its words in the vector-queue registers, or taken up again at row ROWS_DONE. `rows` is how many rows are
done before the next thing happens to the panel: a PREEMPT takes effect at a row boundary (R173, R175-R178, R191). -/
def State.draw (s : State) (t rows : Nat) (w0 w1 w2 w3 : Word) (phase : Nat) : State :=
  let d := DrawWords.ofWords w0 w1 w2 w3
  let x := s.tile t
  if x.drawBusy then
    if decide (x.vq = [w0, w1, w2, w3]) && decide (d.phase = phase) && s.drawMay t then
      (State.drawRows (s.ownerOf t) t d rows s).drawEnd (s.ownerOf t) t d
    else s
  else
    s.dispatch t (drawOk (ins 0x07 false [w0, w1, w2, w3]) && decide (d.phase = phase) && !x.riffleStop && x.drawReady d) fun p iseq s =>
      let s := s.updTile t fun x => { x with vq := [w0, w1, w2, w3], drawBusy := true, drawRows := 0, drawIseq := iseq, drawWrites := [] }
      (State.drawRows p t d rows s).drawEnd p t d

def execWholeRow (tile : DrawAt) (w0 w1 w2 w3 : Word) (s : State) : Host.Outcome State Fault Refusal :=
  .next (finish s (s.draw tile.tile tile.rows w0 w1 w2 w3 0))
def execLocalRow (tile : DrawAt) (w0 w1 w2 w3 : Word) (s : State) : Host.Outcome State Fault Refusal :=
  .next (finish s (s.draw tile.tile tile.rows w0 w1 w2 w3 1))
def execFinalRow (tile : DrawAt) (w0 w1 w2 w3 : Word) (s : State) : Host.Outcome State Fault Refusal :=
  .next (finish s (s.draw tile.tile tile.rows w0 w1 w2 w3 2))

end Sys2Proof.Machine
end

