-- ==== Sys2Proof/Machine/Chain.lean ====
section
/-! DEFINITION. Chains: entering the queue, ready tokens, the start of a leg, running results from member to member and between panels
(R98-R107). -/

namespace Sys2Proof.Machine

/-- The logical neighbour a direction names (Table 4-7). -/
def dirTile (t dir : Nat) : Nat :=
  match dir with
  | 1 => t + 48
  | 2 => t + 1
  | 3 => t - 48
  | _ => t - 1

/-- The side of that neighbour on which the tile lies. -/
def dirBack (dir : Nat) : Nat :=
  match dir with
  | 1 => 3
  | 2 => 4
  | 3 => 1
  | _ => 2

/-- A direction that stays on the panel. -/
def onMesh (dir : Nat) : Bool := decide (1 ≤ dir ∧ dir ≤ 4)

/-- The entry is the instruction of an instance (R98). -/
def ChainEntry.names (e : ChainEntry) (id step : Nat) : Bool := decide (e.words.id = id) && decide (e.step = step)

/-- Every later member of the leg has dispatched (R103). -/
def ChainEntry.token (e : ChainEntry) : Bool := e.ready || e.words.legTail

/-- A chain instruction enters the queue; a token that came first is there for it (R98, R103). -/
def State.chainEnter (s : State) (p t : Nat) (iseq : BitVec 32) (w0 w1 w2 : Word) (energy : Bool) : State :=
  let step := (s.meridian p).toNat
  let key := ((ChainWords.ofWords w0 w1 w2).id, step)
  s.updTile t fun x =>
    { x with chains := x.chains ++ [{ w0 := w0, w1 := w1, w2 := w2, step := step, iseq := iseq, ready := x.tokens.contains key, energy := energy,
                                      pos := x.pos }],
             chainRegs := drainRegsPut x.chainRegs x.chains.length [w0, w1, w2],
             tokens := x.tokens.erase key }

/-- An instruction obeys R99 at its tile, and its mode is the job's. -/
def State.chainFits (s : State) (t : Nat) (w0 w1 w2 : Word) : Bool :=
  let q := s.spot t
  chainOk q.1 q.2.1 q.2.2 (ins 0x05 false [w0, w1, w2]) &&
    decide ((ChainWords.ofWords w0 w1 w2).mode = bnat (s.canonical (s.ownerOf t)))

/-- A chain instruction sends to a panel, or takes a result that is not there yet from one, that no connection reaches any more (R111). -/
def State.chainCut (s : State) (p : Nat) (c : ChainWords) : Bool :=
  (s.connFor p c.peer c.id).isNone &&
    (decide (c.outDir = 5) || (decide (c.inDir = 5) && !(((s.part p).getD {}).inboxFull c (s.meridian p).toNat)))

/-- CHAIN (R98, R99): a third instruction waits at dispatch. A leg end that needs a panel which is lost by then fails its leg, and the job
ends with ST_PEER_LOST (R111). -/
def execChainOp (tile : Nat) (w0 w1 w2 : Word) (s : State) : Host.Outcome State Fault Refusal :=
  .next (finish s (
    s.dispatch tile (s.chainFits tile w0 w1 w2 && decide ((s.tile tile).chains.length < 2)) fun p iseq s =>
      let u := s.chainEnter p tile iseq w0 w1 w2 false
      if s.chainCut p (ChainWords.ofWords w0 w1 w2) then u.endJob p .peerLost else u))

/-- The members of a leg may still change places: the job runs and its partition does not come to rest (R109). -/
def State.legsOpen (s : State) (p : Nat) : Bool :=
  match s.part p with
  | some x => x.dispatching
  | none => false

/-- READY_TOKEN (R103): the next member towards the tail, which holds the token, passes it on; it waits where the instruction has not been
dispatched. -/
def State.takeToken (s : State) (t id step : Nat) : State :=
  let p := s.ownerOf t
  let sent := (s.tilesOf p).any fun u => (s.tile u).chains.any fun e =>
    e.names id step && e.token && onMesh e.words.inDir && decide (dirTile u e.words.inDir = t)
  if sent && s.legsOpen p then
    s.updTile t fun x =>
      if x.chains.any fun e => e.names id step then
        { x with chains := x.chains.map fun e => if e.names id step then { e with ready := true } else e }
      else if x.tokens.contains (id, step) then x
      else { x with tokens := x.tokens ++ [(id, step)] }
  else s

def execReadyToken (tile : Nat) (chain : BitVec 32) (at_ : Word) (s : State) : Host.Outcome State Fault Refusal :=
  .next (finish s (s.takeToken tile chain.toNat at_.toNat))

/-- CHAIN frames of a result: at most 1,021 entries each, the last with LAST (R104). -/
def chainFrames (step : Nat) (c : ChainWords) : Nat → Nat → List Pair → List (List Byte)
  | 0, _, _ => []
  | n + 1, off, es =>
    let last := decide (es.length ≤ 1021)
    chainPayload step c.id ((c.segFirst + c.span) % 2 ^ 32) off (es.take 1021).length ((if last then 0x8000 else 0) + c.op)
        (pairBytes (es.take 1021)) ::
      if last then [] else chainFrames step c n (off + 1021) (es.drop 1021)

/-- The running result goes to the next member: VC1 flits to a neighbour, or CHAIN frames to a panel (R102, R104). With the panel lost the
instance is abandoned and the job ends with ST_PEER_LOST (R111). -/
def State.chainForward (s : State) (p t step : Nat) (c : ChainWords) (es : List Pair) : State :=
  if onMesh c.outDir then
    s.updTile (dirTile t c.outDir) fun x => { x with vc1 := x.vc1 ++ (c.flits es).map fun f => (dirBack c.outDir, f) }
  else if c.outDir = 5 then
    match s.connFor p c.peer c.id with
    | some k => s.openMsg k 0x04 0 none (chainFrames step c (es.length + 1) 0 es)
    | none => s.endJob p .peerLost
  else s

/-- The member at the front of the queue folds, writes and forwards, and its instruction is complete (R100). A HEAD's write is not
digested (R273). -/
def State.chainRun (s : State) (p t : Nat) (e : ChainEntry) (incoming : Option (List Pair)) : State × List Pair :=
  let c := e.words
  let r := c.fold incoming (s.tile t).sram
  let ws := c.dstWrites r.1
  let sum := if c.role = 0 then 0 else s.contrib p t unitChain e.iseq.toNat c.dstLine 0 ws
  let s := s.updTile t fun x =>
    ({ x with chains := x.chains.drop 1, chainRegs := drainRegsDrop x.chainRegs (decide (1 < x.chains.length)) }.store ws).flag r.2
  ((s.completed p t e.iseq.toNat unitChain sum).chainForward p t e.step c r.1, r.1)

/-- A chain order error (R101). -/
def State.orderError (s : State) (p t : Nat) : State := s.raise { det := 0x0411, loc := s.locOf t, part := p }

/-- What a member has finished, if it has: its entry and the result. -/
abbrev ChainDone := Option (ChainEntry × List Pair)

/-- LEG_START (R103): the head folds its own partials, or takes the incoming result from the inbox. -/
def State.legGo (s : State) (p t : Nat) : State × ChainDone :=
  match (s.tile t).chains with
  | [] => (s, none)
  | e :: _ =>
    let c := e.words
    if !e.token || !c.legHead || !s.legsOpen p then (s, none)
    else if c.inDir ≠ 5 then
      let r := s.chainRun p t e none
      (r.1, some (e, r.2))
    else
      match (s.part p).bind fun x => x.chainIn.find? fun i => decide (i.id = c.id) && decide (i.step = e.step) with
      | none => (s, none)
      | some i =>
        if i.abort then (s.endJob p .aborted, none)
        else if i.total ≠ some (8 * c.entries) ∨ !(partsCover 0 (8 * c.entries) i.parts) then (s, none)
        else if i.lead ≠ c.segFirst ∨ i.op ≠ c.op ∨ i.mixed then (s.orderError p t, none)
        else
          let r := s.chainRun p t e (some (bytePairs c.entries (i.parts.flatMap (·.2))))
          (r.1, some (e, r.2))

/-- CHAIN_FLIT (R101, R102): the member at the front takes the next flit from its side; the first one carries the lead word. -/
def State.flitGo (s : State) (p t : Nat) : State × ChainDone :=
  let x := s.tile t
  match x.chains with
  | [] => (s, none)
  | e :: rest =>
    let c := e.words
    match if onMesh c.inDir then x.vc1.find? fun f => decide (f.1 = c.inDir) else none with
    | none => (s, none)
    | some f =>
      if !e.started && !(c.accepts (Lead.ofBytes f.2.data)) then (s.orderError p t, none)
      else
        let got := e.got ++ f.2.data
        let s := s.setTile t { x with vc1 := x.vc1.erase f, chains := { e with started := true, got := got } :: rest }
        if got.length < 8 + c.packed then (s, none)
        else
          let r := s.chainRun p t e (some (bytePairs c.entries (got.drop 8)))
          (r.1, some (e, r.2))

end Sys2Proof.Machine
end

