-- ==== Sys2Proof/Machine/Anneal.lean ====
section
/-! DEFINITION. The anneal sequencer of a tile: SU_RUN, the colour steps, the boundary exchange, the energy trace, the end of a sweep
(R135, R147-R170). -/

namespace Sys2Proof.Machine

/-! ## The registers of a run -/

/-- Staging half of a step: k mod 2, where the count is k + 1 (R162). -/
def halfOf (count : Nat) : Nat := (count + 1) % 2

def SeqState.stage (q : SeqState) (h : Nat) : List (Nat × Nat) := if h = 0 then q.stage0 else q.stage1
def SeqState.withStage (q : SeqState) (h : Nat) (l : List (Nat × Nat)) : SeqState :=
  if h = 0 then { q with stage0 := l } else { q with stage1 := l }
def SeqState.ends (q : SeqState) (h : Nat) : List Nat := if h = 0 then q.ends0 else q.ends1
def SeqState.withEnds (q : SeqState) (h : Nat) (l : List Nat) : SeqState :=
  if h = 0 then { q with ends0 := l } else { q with ends1 := l }

def TileState.updSeq (x : TileState) (f : SeqState → SeqState) : TileState := { x with seq := f x.seq }

/-- Sweeps of the run, a u32 (R14, R155, R166). -/
def SeqCopy.total (c : SeqCopy) : Nat :=
  (if c.ctl.rotate then c.ctl.rotCycles * c.ctl.q else c.sched.foldl (fun n e => n + e.count) 0) % 2 ^ 32

/-- BETA of a schedule entry; +0 in rotation. -/
def SeqCopy.beta (c : SeqCopy) (entry : Nat) : BitVec 32 := if c.ctl.rotate then 0 else (c.sched.getD entry ⟨0, 1⟩).beta

/-- The loop of R155 is over: in rotation every sweep, else every repetition of the last entry. -/
def SeqState.over (q : SeqState) (c : SeqCopy) : Bool :=
  if c.ctl.rotate then decide (c.total ≤ q.sweepsDone)
  else decide (c.sched.length ≤ q.entry + 1) && decide ((c.sched.getD q.entry ⟨0, 1⟩).count ≤ q.rep)

/-- A fault of the sequencer (Table 6-18). -/
def State.seqFault (s : State) (p t det : Nat) : State :=
  (s.updTile t fun x => x.seqStop .fault).raise { det := det, loc := s.locOf t, part := p }

/-- The next step, pass or sweep may begin: the partition is not coming to rest, and no save handler runs (R168). -/
def State.seqMay (s : State) (p : Nat) : Bool :=
  match s.part p with
  | some x => x.dispatching && !x.handler
  | none => false

/-! ## Sending (R161, R163, R164) -/

/-- Export entries of a colour. -/
def SeqCopy.exportsOf (c : SeqCopy) (colour : Nat) : List ExportRef :=
  let d := c.dirs.getD colour ⟨0, 0, 0, 0, 0, 0, 0, 0⟩
  (c.exports.drop d.expFirst).take d.expCount

/-- The value an export entry sends: a state, or the 512 bytes of a state tile. -/
def SeqCopy.exportValue (c : SeqCopy) (m : Mem) (e : ExportRef) : Nat :=
  if c.ctl.dense then leNat (m.read (e.src * 64) 512) else c.ctl.stateOf m c.ctl.stateLine e.src

/-- An entry of a HALO frame (R164). -/
def haloEntry (dense : Bool) (tile slot v : Nat) : List Byte :=
  if dense then beBytes 2 tile ++ beBytes 2 slot ++ [0, 0, 0, 0] ++ leBytes 512 v
  else beBytes 2 tile ++ [BitVec.ofNat 8 v, 0] ++ beBytes 4 slot

/-- The HALO frames of one group for one panel, the last with LAST (R164). -/
def haloFrames (dense : Bool) (meridian sweep colour src : Nat) : Nat → Nat → List (List Byte) → List (List Byte)
  | 0, _, _ => []
  | n + 1, off, es =>
    let k := if dense then 15 else 1021
    let last := decide (es.length ≤ k)
    let now := es.take k
    (beBytes 8 meridian ++ beBytes 4 sweep ++ beBytes 2 colour ++ beBytes 2 src ++ beBytes 4 off ++ beBytes 2 now.length ++
        beBytes 2 ((if last then 0x8000 else 0) + (if dense then 0x4000 else 0)) ++ now.flatten) ::
      if last then [] else haloFrames dense meridian sweep colour src n (off + k) (es.drop k)

/-- Panels of the remote peers. -/
def SeqCopy.remotePanels (c : SeqCopy) (own : Nat) : List Nat :=
  ((c.peers.filter fun r => decide (r.panel ≠ own)).map (·.panel)).eraseDups

/-- One colour group goes out: over the mesh, to the on-panel peers among `dest`, and as one message to each remote panel (R161, R163,
R164). -/
def State.sendGroup (s : State) (p t : Nat) (c : SeqCopy) (dest : Nat → Bool) (step sweep colour : Nat) : State :=
  let m := (s.tile t).sram
  let es := (c.exportsOf colour).filterMap fun e => (c.peers[e.peer]?).map fun r => (r, e.dst, c.exportValue m e)
  let s := es.foldl (fun s (e : PeerRef × Nat × Nat) =>
    if e.1.panel = s.panel && dest e.1.tile then s.updTile e.1.tile fun x => { x with su := x.su ++ [(t, .value step e.2.1 e.2.2)] } else s) s
  (c.remotePanels s.panel).foldl (fun s n =>
    match s.connFor p n t with
    | some k =>
      let bs := (es.filter fun e => decide (e.1.panel = n)).map fun e => haloEntry c.ctl.dense e.1.tile e.2.1 e.2.2
      s.openMsg k 0x03 0 none (haloFrames c.ctl.dense (s.meridian p).toNat sweep colour t (bs.length + 1) 0 bs)
    | none => s) s

/-- Colour groups and then END to every peer; the tile awaits theirs (R161). -/
def State.sendStep (s : State) (p t : Nat) (c : SeqCopy) (dest : Nat → Bool) (step sweep : Nat) (colours : List Nat) : State :=
  let s := colours.foldl (fun s k => s.sendGroup p t c dest step sweep k) s
  let s := (c.peers.filter fun r => decide (r.panel = s.panel) && dest r.tile).foldl (fun s r =>
    s.updTile r.tile fun x => { x with su := x.su ++ [(t, .endMark step)] }) s
  s.updTile t fun x => x.updSeq fun q => { q with waitEnd := true }

/-! ## SU_RUN (R150, R154) -/

/-- Earlier array instructions have completed (R150). -/
def ArrayState.idle (a : ArrayState) : Bool := a.issues.isEmpty && a.drains.isEmpty && a.spillBuf.isNone

/-- The sequencer takes the array: SU_MODE is set (R150). -/
def TileState.suMode (x : TileState) (q : SeqState) : TileState :=
  { x with seq := q, array := { x.array with ctrl := x.array.ctrl ||| 0x10 } }

/-- The sequencer enters a phase. -/
def TileState.enter (x : TileState) (phase : SeqPhase) : TileState := { x with seq := { x.seq with phase := phase } }

/-- The registers of a run as SU_RUN leaves them (R150). -/
def SeqState.start (words : List Word) (c : SeqCopy) (line : Nat) (iseq : BitVec 32) : SeqState :=
  { words := words, copy := some c, ctrlLine := line, phase := .check, iseq := iseq, sweep := c.ctl.sweepFirst }

/-- Relaxed colours of a run are noted for the audit record (R270). -/
def State.noteRelaxed (s : State) (p : Nat) (b : Bool) : State := s.updRun p fun r => { r with relaxed := r.relaxed || b }

/-- PRIME begins: the check pass is left behind (R144), and every colour group goes out (R161). -/
def State.primeGo (s : State) (p t : Nat) (c : SeqCopy) : State :=
  ((s.noteRelaxed p c.ctl.relaxed).updTile t fun x => (x.enter .prime).updSeq fun q => { q with got := c.nextPass q.got }).sendStep p t c
    (fun _ => true) 0 0xFFFFFFFF (List.range c.ctl.ncol)

/-- CHECK (R148, R154). A streamed run waits for the records of the check pass, unless what it has read refuses the run already (R144). -/
def State.checkGo (s : State) (p t : Nat) (c : SeqCopy) : State :=
  let x := s.tile t
  let inPart := fun u => decide (s.ownerOf u = p)
  if c.formOk x.seq.ctrlLine x.seq.words s.panel inPart && !(c.ready x.seq.got 15) then s
  else
    match c.check x.sram x.seq.got x.seq.ctrlLine x.seq.words s.panel inPart with
    | .format => (s.seqFault p t 0x0904).endJob p .badFormat
    | .conflict a r =>
      let s := s.updTile t fun x => x.updSeq fun q => { q with errFlag := true, conflict := BitVec.ofNat 64 (a * 2 ^ 32 + r) }
      (s.seqFault p t 0x0903).endJob p .badFormat
    | .ok => s.primeGo p t c

/-- SU_RUN: the copy of the control block, then CHECK and PRIME. -/
def State.suRun (s : State) (p t : Nat) (iseq : BitVec 32) (line : Nat) : State :=
  let m := (s.tile t).sram
  let words := (List.range 8).map fun i => BitVec.ofNat 64 (m.nat (line * 64 + 8 * i) 8)
  let c := SeqCopy.read m line words
  (s.updTile t fun x => (x.suMode (SeqState.start words c line iseq)).ringPull).checkGo p t c

def execSuRun (tile : Nat) (w0 : Word) (s : State) : Host.Outcome State Fault Refusal :=
  .next (finish s (
    let x := s.tile tile
    let free := x.array.idle && decide (x.seq.phase = .idle ∨ x.seq.phase = .halt) && !x.array.stopped
    s.dispatch tile (singleOk (ins 0x09 false [w0]) && free) fun p iseq s => s.suRun p tile iseq (bits w0.toNat 63 48)))

/-! ## Staging (R162) -/

/-- An entry as a staging half holds it. -/
def stageBytes (dense : Bool) (tile slot v : Nat) : List Byte :=
  if dense then leBytes 2 tile ++ leBytes 2 slot ++ [0, 0, 0, 0] ++ leBytes 512 v
  else leBytes 2 tile ++ [BitVec.ofNat 8 v, 0] ++ leBytes 4 slot

/-- An import lands in its staging half; one that the half cannot hold raises 0x0906. -/
def State.stagePut (s : State) (p t step slot v : Nat) : State :=
  let q := (s.tile t).seq
  match q.copy with
  | none => s
  | some c =>
    let h := halfOf step
    let n := (q.stage h).length
    let size := if c.ctl.dense then 520 else 8
    if !q.active then s
    else if c.ctl.stageLines * 64 < size * (n + 1) then s.seqFault p t 0x0906
    else
      let a := (c.ctl.stageLine + h * c.ctl.stageLines) * 64 + size * n
      s.updTile t fun x =>
        (x.store [(a, stageBytes c.ctl.dense t slot v)]).updSeq fun q => q.withStage h (q.stage h ++ [(slot, v)])

/-- The first flit from a source, and the others: END comes after the exports of its source (R161). -/
def takeFrom (src : Nat) : List (Nat × SuFlit) → Option (SuFlit × List (Nat × SuFlit))
  | [] => none
  | f :: t => if f.1 = src then some (f.2, t) else (takeFrom src t).map fun r => (r.1, f :: r.2)

/-- Boundary flits for a tile wait at it: its sequencer has not started the run they are for (R162; log 41). -/
def SeqState.waits (q : SeqState) : Bool := decide (q.phase = .idle ∨ q.phase = .halt)

/-- EXPORT (R162, R163): the next export of a source arrives. It waits while the sequencer has not started. -/
def State.exportIn (s : State) (t src : Nat) : State :=
  let x := s.tile t
  match takeFrom src x.su with
  | some (.value step slot v, rest) =>
    if x.seq.waits then s
    else (s.setTile t { x with su := rest }).stagePut (s.ownerOf t) t step slot v
  | _ => s

def execExportFlit (tile src : Nat) (s : State) : Host.Outcome State Fault Refusal := .next (finish s (s.exportIn tile src))

/-- END_MARKER (R161): ordered after the exports of its source; from a tile that is no peer it raises 0x0906. -/
def State.endIn (s : State) (t src : Nat) : State :=
  let x := s.tile t
  match takeFrom src x.su, x.seq.copy with
  | some (.endMark step, rest), some c =>
    if x.seq.waits then s
    else
      let s := s.setTile t { x with su := rest }
      if !(c.peers.any fun r => decide (r.panel = s.panel) && decide (r.tile = src)) then s.seqFault (s.ownerOf t) t 0x0906
      else if x.seq.step ≤ step then
        s.updTile t fun x => x.updSeq fun q => q.withEnds (halfOf step) (src :: q.ends (halfOf step))
      else s
  | _, _ => s

def execEndMarker (tile src : Nat) (s : State) : Host.Outcome State Fault Refusal := .next (finish s (s.endIn tile src))

/-- Entries of a HALO group: destination tile, slot and value (R164). -/
def haloEntries (dense : Bool) : Nat → List Byte → List (Nat × Nat × Nat)
  | 0, _ => []
  | n + 1, b =>
    if b.isEmpty then []
    else if dense then (field b 0 2, field b 2 2, leNat ((b.drop 8).take 512)) :: haloEntries dense n (b.drop 520)
    else (field b 0 2, field b 4 4, field b 2 1) :: haloEntries dense n (b.drop 8)

/-- A whole group. -/
def HaloIn.whole (h : HaloIn) : Bool :=
  match h.total with
  | some n => partsCover 0 n h.parts
  | none => false

def HaloIn.entries (h : HaloIn) : List (Nat × Nat × Nat) :=
  let b := h.parts.flatMap (·.2)
  haloEntries h.wide b.length b

/-- SWEEP and the colours that name the groups of the present step: those of PRIME, or of one colour (R164, R165). -/
def SeqState.haloKey (q : SeqState) (c : SeqCopy) : Nat × List Nat :=
  if q.step = 0 then (0xFFFFFFFF, List.range c.ctl.ncol) else (q.sweep, [q.colour])

/-- A group of the inbox belongs to the present step. -/
def State.haloNow (s : State) (p t : Nat) (c : SeqCopy) (h : HaloIn) : Bool :=
  let k := (s.tile t).seq.haloKey c
  decide (h.step = (s.meridian p).toNat) && decide (h.sweep = k.1) && k.2.contains h.colour && (h.wide == c.ctl.dense)

/-- The tile moves its entries of a whole group into its staging half (R165). -/
def State.moveGroup (s : State) (p t : Nat) (h : HaloIn) : State :=
  let step := (s.tile t).seq.step
  let s := (h.entries.filter fun e => decide (e.1 = t)).foldl (fun s e => s.stagePut p t step e.2.1 e.2.2) s
  s.updPart p fun x => { x with haloIn := x.haloIn.map fun g =>
    if { g with moved := [] } = { h with moved := [] } then { g with moved := t :: g.moved } else g }

/-- Every whole group of the present step that has not been moved. Entries of a panel's tile that is no peer raise 0x0906 (R161, R165). -/
def State.moveHalos (s : State) (p t : Nat) (c : SeqCopy) : State :=
  match s.part p with
  | none => s
  | some x =>
    let now := x.haloIn.filter fun h => s.haloNow p t c h && h.whole && !(h.moved.contains t)
    let peer := fun (h : HaloIn) => c.peers.any fun r => decide (r.panel = h.panel) && decide (r.tile = h.src)
    if now.any fun h => !(peer h) && h.entries.any fun e => decide (e.1 = t) then s.seqFault p t 0x0906
    else (now.filter peer).foldl (fun s h => s.moveGroup p t h) s

/-- END of the present step has come from every peer (R161, R165). -/
def State.allEnds (s : State) (p t : Nat) (c : SeqCopy) : Bool :=
  let q := (s.tile t).seq
  let k := q.haloKey c
  c.peers.all fun r =>
    if r.panel = s.panel then (q.ends (halfOf q.step)).contains r.tile
    else
      match s.part p with
      | some x => k.2.all fun colour => x.haloIn.any fun h =>
          s.haloNow p t c h && decide (h.panel = r.panel) && decide (h.src = r.tile) && decide (h.colour = colour) && h.moved.contains t
      | none => false

/-- A destination of an import: a slot of the halo directory, or a line of the allocation (R162). -/
def SeqCopy.importOk (c : SeqCopy) (slot : Nat) : Bool :=
  if c.ctl.dense then inAlloc (slot * 64) 512
  else c.dirs.any fun d => decide (d.haloFirst ≤ slot ∧ slot < d.haloFirst + d.haloCount)

/-- The imports of a step in the halo vector or the B lines. -/
def SeqCopy.copyIn (c : SeqCopy) (m : Mem) (es : List (Nat × Nat)) : Mem :=
  es.foldl (fun m (e : Nat × Nat) => if c.ctl.dense then m.write (e.1 * 64) (leBytes 512 e.2) else c.ctl.putState c.ctl.haloLine m e.1 e.2) m

/-- Counts per replica added. -/
def addCounts (a b : List Nat) : List Nat := if a.isEmpty then b else (a.zip b).map fun x => x.1 + x.2

/-- Coupled flips of the step that has just been copied (R149). -/
def SeqCopy.coupled (c : SeqCopy) (q : SeqState) (after : Mem) : List Nat :=
  if !c.ctl.relaxed ∨ q.step = 0 then if c.ctl.dense then List.replicate 64 0 else [0]
  else if c.ctl.dense then (List.range 64).map fun j => c.denseCflips q.before after q.colour j
  else [c.sparseCflips q.before after q.got q.colour q.changed]

/-! ## Colour steps (R147, R166) -/

/-- What a step commits: the bytes of the colour's slots, or the decided state tiles. -/
def SeqCopy.committed (c : SeqCopy) (m : Mem) (got : List (List Byte)) (colour : Nat) : List (Nat × List Byte) :=
  let d := c.dirs.getD colour ⟨0, 0, 0, 0, 0, 0, 0, 0⟩
  if c.ctl.dense then
    (c.groups m colour).filterMap fun g => (lastBlock g).map fun b => (b.dstLine * 64, m.read (b.dstLine * 64) 512)
  else
    (groupVars (c.records m got d.recFirst d.recCount)).map fun v =>
      let a := c.ctl.stateLine * 64 + (if c.ctl.potts then v.1.slot else v.1.slot / 8)
      (a, [m.byte a])

/-- The array takes the blocks of a tile's variable groups (R146): what long issues do to the spill slot and to the audit flag (R68,
R69). -/
def TileState.fieldRun (c : SeqCopy) (gs : List (List DenseBlock)) (x : TileState) : TileState :=
  let long := gs.any fun g => decide (2 ^ 25 ≤ groupTerms g)
  { x with sram := Mem.writeAll x.sram (fieldSpills c.ctl x.array.ctrl x.sram gs),
           array := { x.array with unbounded := x.array.unbounded || (long && !spillOn x.array.ctrl) } }

/-- In CANONICAL mode a field of more than 4,096 terms stops the array with a chain error (R95, R146). -/
def State.fieldsLong (s : State) (p : Nat) (gs : List (List DenseBlock)) : Bool :=
  s.canonical p && gs.any fun g => decide (4096 < groupTerms g)

/-- A colour step: decisions from the states as it begins, the commit, the exports (R147, R161, R273, R276). -/
def State.colourGo (s : State) (p t colour : Nat) : State :=
  let x := s.tile t
  match x.seq.copy with
  | none => s
  | some c =>
    let gs := c.fieldGroups x.sram colour
    if s.fieldsLong p gs then s.chainLong p t
    else
      let q := x.seq
      let y := x.fieldRun c gs
      let o := c.colourStep (spillOn x.array.ctrl) y.sram x.seed q.got q.sweep colour (c.beta q.entry)
      let sum := s.contrib p t unitSeq colour c.ctl.stateLine 0 (c.committed o.mem q.got colour)
      let flips := if colour = 0 then o.flips else addCounts q.flips o.flips
      let q : SeqState := { q with phase := .run, colour := colour, step := q.step + 1, flips := flips, due := none,
                                   cflips := if colour = 0 then [] else q.cflips, changed := o.changed, before := x.sram }
      let s := s.setTile t ({ y with sram := o.mem, seq := q }.flag o.flags)
      (s.completed p t colour unitSeq sum).sendStep p t c (fun _ => true) q.step q.sweep [colour]

/-- A colour step begins once its records are there; until then it is due (R144). -/
def State.colourTry (s : State) (p t : Nat) (c : SeqCopy) (colour : Nat) : State :=
  if c.ready (s.tile t).seq.got colour then s.colourGo p t colour
  else s.updTile t fun x => x.updSeq fun q => { q with phase := .run, due := some colour }

/-! ## The end of a sweep (R155, R157, R167) -/

/-- A tile's stream holds an SU_RUN (R150). -/
def Program.anneals (g : Program) (ix : Nat) : Bool :=
  match g.streams.find ix with
  | some ws =>
    match parseStream ws.length 0 ws with
    | some l => l.any fun i => decide (i.opc = 0x09)
    | none => false
  | none => false

/-- A tile takes part in the partition's sweeps: its sequencer runs, or its stream has yet to start it (log 52). -/
def State.sweeps (s : State) (p t : Nat) : Bool :=
  let x := s.tile t
  x.seq.active || (decide (x.seq.phase = .idle) && !x.ended &&
    match s.part p with
    | some y =>
      match y.program with
      | some g => g.anneals (s.spot t).2.2
      | none => false
    | none => false)

/-- The next sweep, or HALT after the last (R155). -/
def State.nextSweep (s : State) (p t : Nat) : State :=
  let q := (s.tile t).seq
  match q.copy with
  | none => s
  | some c =>
    if q.gate ≠ some true ∨ !(s.seqMay p) ∨ (s.tile t).riffleStop then s
    else
      let s := s.updTile t fun x => x.updSeq fun q => { q with gate := none }
      if q.over c then s.updTile t fun x => x.seqStop .halt else s.colourTry p t c 0

/-- The counts that a sweep's end moves on: the schedule position, which stays at the last entry after the last sweep, and SWEEP outside
rotation (R155, R156, R166). -/
def SeqState.moveOn (q : SeqState) : SeqState :=
  match q.copy with
  | none => q
  | some c =>
    let q : SeqState := { q with gate := some true, got := c.nextPass q.got }
    if c.ctl.rotate then q
    else
      let q : SeqState := { q with sweep := (q.sweep + 1) % 2 ^ 32 }
      if q.rep + 1 < (c.sched.getD q.entry ⟨0, 1⟩).count ∨ c.sched.length ≤ q.entry + 1 then { q with rep := q.rep + 1 } else { q with rep := 0, entry := q.entry + 1 }

/-- Every tile of the run has ended its sweep: MERIDIAN advances by one, and the next sweep begins (R157). -/
def State.sweepBoundary (s : State) (p : Nat) : State :=
  let ts := (s.tilesOf p).filter fun t => s.sweeps p t
  if !ts.isEmpty && (ts.all fun t => decide ((s.tile t).seq.gate = some false)) && s.seqMay p && s.mayAdvance p then
    let id := (s.running p).map fun r => r.1.id
    let s := s.advance p
    if (s.running p).map (fun r => r.1.id) = id then
      let s := s.updTiles ts fun x => x.updSeq SeqState.moveOn
      ts.foldl (fun s t => s.nextSweep p t) s
    else s
  else s

/-- A tile's sweep ends: the rotation check after a whole cycle, then the boundary (R155, R167). -/
def State.sweepEnd (s : State) (p t : Nat) : State :=
  let x := s.tile t
  match x.seq.copy with
  | none => s
  | some c =>
    if c.ctl.rotate ∧ x.seq.sweepsDone % c.ctl.q = 0 ∧ BitVec.ofNat 64 (c.digest x.sram) ≠ x.seq.rotDigest then s.seqFault p t 0x0905
    else (s.updTile t fun x => x.updSeq fun q => { q with phase := .run, traceWait := false, gate := some false }).sweepBoundary p

/-! ## The energy pass (R158-R160) -/

/-- Words of the chain instruction at CHAIN_LINE. -/
def SeqCopy.chainWords (c : SeqCopy) (m : Mem) : Word × Word × Word :=
  let g := fun i => BitVec.ofNat 64 (m.nat (c.ctl.chainLine * 64 + 8 * i) 8)
  (g 0, g 1, g 2)

def SeqCopy.chain (c : SeqCopy) (m : Mem) : ChainWords :=
  let w := c.chainWords m
  ChainWords.ofWords w.1 w.2.1 w.2.2

/-- Records of a traced sweep. -/
def SeqCopy.recordsPer (c : SeqCopy) : Nat := if c.ctl.dense then 64 else 1

/-- The trace ring of a tile holds the records of one more traced sweep, if the tile is a chain tail (R160). -/
def TileState.traceRoom (x : TileState) : Bool :=
  match x.seq.copy with
  | some c =>
    !x.seq.active || decide (c.ctl.traceEvery = 0) || !(c.chain x.sram).isTail ||
      decide ((x.seq.traceWr + 65536 - x.seq.traceRd) % 65536 + c.recordsPer ≤ c.ctl.traceCap)
  | none => true

/-- The partials at SRC_LINE, and the energy chain in the queue. A chain instruction that R99 or R158 does not allow is a malformed control
block (log 53). -/
def State.energyPass (s : State) (p t : Nat) (c : SeqCopy) : State :=
  let x := s.tile t
  let w := c.chainWords x.sram
  let ch := c.chain x.sram
  let gs := if c.ctl.dense then (List.range c.ctl.ncol).flatMap (c.groups x.sram) else []
  if !(s.chainFits t w.1 w.2.1 w.2.2) ∨ ch.op ≠ 0 ∨ ch.count ≠ 4 * c.recordsPer then (s.seqFault p t 0x0904).endJob p .badFormat
  else if s.fieldsLong p gs then s.chainLong p t
  else
    let q := x.seq
    let ps := if c.ctl.dense then c.densePartials (spillOn x.array.ctrl) x.sram (s.canonical p) ch q.flips q.cflips
      else c.sparsePartials x.sram q.got (s.canonical p) ch (q.flips.getD 0 0) (q.cflips.getD 0 0)
    let ws := ps.1.zipIdx.map fun g => (ch.srcLine * 64 + g.2 * ch.bytes, pairBytes g.1)
    let s := s.updTile t fun x => (((x.fieldRun c gs).store ws).flag ps.2).updSeq fun q => { q with phase := .energy, traceWait := false }
    s.chainEnter p t q.iseq w.1 w.2.1 w.2.2 true

/-- The energy pass begins once the ring of the chain's tail has room and the chain queue an entry; until then the tile waits (R98, R160). -/
def State.energyTry (s : State) (p t : Nat) : State :=
  let x := s.tile t
  match x.seq.copy with
  | none => s
  | some c =>
    if ((s.tilesOf p).all fun u => (s.tile u).traceRoom) && decide (x.chains.length < 2) && s.seqMay p then s.energyPass p t c
    else s.updTile t fun x => x.updSeq fun q => { q with phase := .energy, traceWait := true }

/-- The records a chain tail appends to its ring (R159, R160). -/
def SeqCopy.traceWrites (c : SeqCopy) (q : SeqState) (es : List Pair) : List (Nat × List Byte) :=
  let final := decide (q.sweepsDone = c.total)
  (List.range c.recordsPer).map fun r =>
    ((c.ctl.traceLine * 64 + 32 * ((q.traceWr + r) % c.ctl.traceCap)),
      traceRecord q.sweep (c.beta q.entry) ((es.drop (4 * r)).take 4) (if c.ctl.dense then r else c.ctl.replica) c.ctl.rotate c.ctl.relaxed final)

/-- The tile's part in the energy chain is done: as tail it writes the records, and its sweep ends. -/
def State.energyDone (s : State) (p t : Nat) (tail : Bool) (es : List Pair) : State :=
  let q := (s.tile t).seq
  match q.copy with
  | none => s
  | some c =>
    if q.phase ≠ .energy then s
    else if !tail then s.sweepEnd p t
    else
      let ws := c.traceWrites q es
      let sum := s.contrib p t unitSeq 16 c.ctl.traceLine (2 ^ 63) ws
      let s := s.updTile t fun x => (x.store ws).updSeq fun q => { q with traceWr := q.traceWr + c.recordsPer }
      (s.completed p t 16 unitSeq sum).sweepEnd p t

/-- The colours of a sweep are done (R155). -/
def State.coloursDone (s : State) (p t : Nat) (c : SeqCopy) : State :=
  let n := ((s.tile t).seq.sweepsDone + 1) % 2 ^ 32
  let s := s.updTile t fun x => x.updSeq fun q => { q with sweepsDone := n }
  if c.ctl.traceEvery ≠ 0 ∧ (n % c.ctl.traceEvery = 0 ∨ n = c.total) then s.energyTry p t else s.sweepEnd p t

/-! ## STAGING_COPY (R162) -/

/-- The copy of a step whose ENDs are there, and the next step. -/
def State.copyGo (s : State) (p t : Nat) (c : SeqCopy) : State :=
  let x := s.tile t
  let q := x.seq
  let h := halfOf q.step
  let es := q.stage h
  if !(es.all fun e => c.importOk e.1) then s.seqFault p t 0x0906
  else
    let m := c.copyIn x.sram es
    let q' : SeqState := ({ q with waitEnd := false, before := [], changed := [], cflips := addCounts q.cflips (c.coupled q m) }.withStage h []).withEnds h []
    let s := s.setTile t { x with sram := m, seq := q' }
    if q.step = 0 then
      let s := s.updTile t fun x => x.updSeq fun q =>
        { q with phase := .run, cflips := [], rotDigest := if c.ctl.rotate then BitVec.ofNat 64 (c.digest m) else 0, gate := some true }
      s.nextSweep p t
    else if q.colour + 1 < c.ctl.ncol then s.colourTry p t c (q.colour + 1)
    else s.coloursDone p t c

/-- Every flit that a tile has sent has been delivered (R163). -/
def State.sentAll (s : State) (p t : Nat) : Bool := (s.tilesOf p).all fun u => (s.tile u).su.all fun f => decide (f.1 ≠ t)

/-- An on-panel peer still awaits the PRIME of a tile: its sequencer has not started, or is itself in PRIME without the tile's END. What
went to a peer that had not started was given up when the partition came to rest (R168; log 134). -/
def State.primeDue (s : State) (t u : Nat) : Bool :=
  let q := (s.tile u).seq
  q.waits || (decide (q.phase = .check ∨ q.phase = .prime) && !((q.ends (halfOf 0)).contains t))

/-- A PRIME that a rest has cut is restarted (R168). -/
def State.primeAgain (s : State) (p t : Nat) (c : SeqCopy) : State :=
  let dest := s.primeDue t
  (s.updTile t fun x => x.updSeq fun q => { q with again := false }).sendStep p t c dest 0 0xFFFFFFFF (List.range c.ctl.ncol)

/-- A tile's sequencer goes on with what it awaits: the records of CHECK or of a colour step, the ENDs of its step, trace space, the boundary
of its sweep, or the end of a rest (R144, R162, R168). -/
def State.seqGo (s : State) (p t : Nat) : State :=
  let q := (s.tile t).seq
  match q.copy with
  | none => s
  | some c =>
    if !q.active || !(s.seqMay p) || (s.tile t).riffleStop then s
    else if q.phase = .check then s.checkGo p t c
    else if q.phase = .prime ∧ q.again then s.primeAgain p t c
    else if q.waitEnd then
      let s := s.moveHalos p t c
      if (s.tile t).seq.active && s.allEnds p t c && s.sentAll p t then s.copyGo p t c else s
    else if let some k := q.due then s.colourTry p t c k
    else if q.traceWait then s.energyTry p t
    else
      match q.gate with
      | some false => s.sweepBoundary p
      | some true => s.nextSweep p t
      | none => s

def execStagingCopy (tile : Nat) (s : State) : Host.Outcome State Fault Refusal := .next (finish s (s.seqGo (s.ownerOf tile) tile))

/-- TRACE_RD (R156, R160): tiles that wait for trace space go on. -/
def State.writeTraceRd (s : State) (tile v : Nat) : State :=
  let s := s.updTile tile fun x => x.updSeq fun q => { q with traceRd := v % 2 ^ 16 }
  let p := s.ownerOf tile
  (s.tilesOf p).foldl (fun s t => if (s.tile t).seq.traceWait then s.seqGo p t else s) s

def execTraceRd (tile : Nat) (v : BitVec 32) (s : State) : Host.Outcome State Fault Refusal :=
  .next (finish s (s.writeTraceRd tile v.toNat))

/-! ## Legs (R103, R158) -/

/-- After a member has run: the energy chain's part of a sequencer is done. -/
def State.chainDone (s : State) (p t : Nat) (d : ChainDone) : State :=
  match d with
  | some (e, r) => if e.energy then s.energyDone p t e.words.isTail r else s
  | none => s

def execLegStart (tile : Nat) (s : State) : Host.Outcome State Fault Refusal :=
  .next (finish s (
    let p := s.ownerOf tile
    let r := s.legGo p tile
    r.1.chainDone p tile r.2))

def execChainFlit (tile : Nat) (s : State) : Host.Outcome State Fault Refusal :=
  .next (finish s (
    let p := s.ownerOf tile
    let r := s.flitGo p tile
    r.1.chainDone p tile r.2))

end Sys2Proof.Machine
end

