-- ==== Sys2Proof/Machine/Diag.lean ====
section
/-! DEFINITION. ERR_READ, INJECT, SELFTEST and CALIBRATE: the requests on detectors, tests and settings (R364-R366, R436, R464-R468,
R480, R489-R492). -/

namespace Sys2Proof.Machine

/-! ## Locations -/

/-- Detectors whose instances stand at a tile (R470). -/
def detOnTile (det : Nat) : Bool := decide (det / 256 ∈ [1, 2, 3, 6, 7, 9]) || decide (det = 0x1004)

/-- A die code of the build (Table 17-5). -/
def Fuses.hasDie (f : Fuses) (d : Nat) : Bool :=
  decide (d < 24) || decide (0x20 ≤ d ∧ d < 0x20 + f.edgeDies) || decide (d = 0x40)

/-- The location exists and is of the kind the detector stands at. -/
def State.locOk (s : State) (det : Nat) (l : Loc) : Bool :=
  (s.fuses.hasDie l.die || (decide (l.die = 0xFF) && decide (l.unit ≠ 0xFFFF))) &&
    (if l.px = 0xFF ∧ l.py = 0xFF then !(detOnTile det)
     else decide (l.px < 48 ∧ l.py < 78) && decide (dieAt l.px l.py = l.die) && !(s.fuses.bad.contains (physIx l.px l.py)))

/-- Location fields of a request. -/
def locField (b : List Byte) (die unit : Nat) : Loc :=
  { die := field b die 1, px := field b (die + 1) 1, py := field b (die + 2) 1, unit := field b unit 2 }

/-! ## ERR_READ (R480) -/

/-- A record as ERR_READ carries it (R475). -/
def ErrRec.bytes (r : ErrRec) : List Byte :=
  beBytes 2 r.det ++ beBytes 1 r.cls ++ beBytes 1 r.sev ++ beBytes 4 r.count ++ beBytes 8 r.first ++ beBytes 8 r.last ++
    beBytes 1 r.domain ++ beBytes 1 r.loc.die ++ beBytes 1 r.loc.px ++ beBytes 1 r.loc.py ++ beBytes 2 r.loc.unit ++ beBytes 1 r.part ++
    beBytes 1 r.flags ++ beBytes 8 r.meridian.toNat ++ fitBytes 16 r.syn ++ beBytes 4 r.seq.toNat ++ beBytes 4 r.job.toNat

/-- The records a RECORDS request returns: the oldest at or after FROM_SEQ in serial order, at most n (R480). -/
def ErrState.wanted (e : ErrState) (box : Nat) (from_ : BitVec 32) (n : Nat) : List ErrRec :=
  (e.ring.filter fun r => (decide (box = 0) || decide (r.part = box)) && decide ((r.seq - from_).toNat < 2 ^ 31)).take n

/-- KIND RECORDS. -/
def State.errRecords (s : State) (r : Req) (flags n : Nat) (from_ : BitVec 32) : State :=
  let rs := s.err.wanted r.box from_ n
  let next := match rs.getLast? with
    | some x => x.seq + 1
    | none => s.err.nextSeq
  let body := beBytes 4 next.toNat ++ beBytes 8 s.err.spillway.toNat ++ beBytes 2 rs.length ++ List.replicate 6 0 ++
    rs.flatMap ErrRec.bytes
  let s := s.reply r .ok body
  let s := if bit flags 1 then
      { s with err := { s.err with spillDetail := 0, fullEpisodes := 0, resetDiscard := false } } else s
  if bit flags 0 then
    let gone := rs.map (·.seq)
    let t : State := { s with err := { s.err with ring := s.err.ring.filter fun x => !(gone.contains x.seq) } }
    State.writeHeld false (t.err.insts.length + t.err.waiting.length + 1) t
  else s

/-- KIND INSTANCE. -/
def State.errInst (s : State) (r : Req) (det : Nat) (l : Loc) : State :=
  let d := s.err.inst det l
  let t := match detThreshold det with
    | some (t, _) => t
    | none => 0
  s.reply r .ok (beBytes 8 d.total.toNat ++ beBytes 8 d.held ++ beBytes 2 (sat 16 d.level) ++ beBytes 2 t ++ beBytes 1 d.sev ++
    beBytes 1 (bnat d.inexact) ++ [0, 0])

def State.errRead (r : Req) (s : State) : State :=
  let b := r.payload
  let flags := field b 1 1
  let n := field b 2 2
  if b.length ≠ 16 ∨ 1 < field b 0 1 ∨ 4 ≤ flags ∨ field b 13 1 ≠ 0 then s.reply r .badFormat []
  else if field b 0 1 = 0 then
    if n = 0 ∨ 120 < n then s.reply r .badFormat []
    else if r.box ≠ 0 ∧ flags ≠ 0 then s.reply r .refused []
    else s.errRecords r flags n (BitVec.ofNat 32 (field b 4 4))
  else
    let det := field b 8 2
    let l := locField b 10 14
    if n ≠ 0 ∨ !(detKnown det) ∨ !(s.locOk det l) then s.reply r .badFormat []
    else if r.box ≠ 0 ∧ flags ≠ 0 then s.reply r .refused []
    else s.errInst r det l

def execErrRecords (f : VFrame) (s : State) : Host.Outcome State Fault Refusal := .next (finish s (s.vorlaIn 0x62 f State.errRead))
def execInstanceRecord (f : VFrame) (s : State) : Host.Outcome State Fault Refusal := .next (finish s (s.vorlaIn 0x62 f State.errRead))

/-! ## INJECT (R489, R490) -/

/-- Detectors whose action is a device reset (R473). -/
def detResets (det : Nat) : Bool :=
  decide (det = 0x0402) || decide (det = 0x0407) || decide (det = 0x0D01) || decide (det = 0x0E08) ||
    (decide (detClass det = 4) && decide (det ∉ [0x0504, 0x0D05, 0x0D06]))

/-- Physical tiles of a die. -/
def dieTiles (die : Nat) : List (Nat × Nat) :=
  (List.range 13).flatMap fun k => (List.range 12).map fun c => (die % 4 * 12 + c, die / 4 * 13 + k)

/-- Detectors of a tile's router and its links, whose clock runs whatever the tile does (R21). -/
def detOnRouter (det : Nat) : Bool := decide (det / 256 = 4) || decide (det = 0x0303)

/-- Every instance on a die whose domain clock runs, in the order the steward reports them (R21, R31, R489). -/
def State.dieWide (s : State) (det : Nat) (l : Loc) : List Loc :=
  if detOnTile det then
    let on := fun (q : Nat × Nat) => detOnRouter det || (!(s.diePower l.die).asleep && !(s.unitsOff q.1 q.2))
    ((dieTiles l.die).filter on).map fun q => { Loc.at q.1 q.2 with unit := l.unit }
  else [{ die := l.die, unit := l.unit }]

def State.injectReq (r : Req) (s : State) : State :=
  let b := r.payload
  let det := field b 0 2
  let mode := field b 2 1
  let flags := field b 3 1
  let l := locField b 4 8
  let n := field b 12 4
  let period := field b 16 4
  if b.length ≠ 24 ∨ 2 < mode ∨ 8 ≤ flags ∨ field b 7 1 ≠ 0 ∨ field b 10 2 ≠ 0 ∨ field b 20 4 ≠ 0 then s.reply r .badFormat []
  else if mode = 2 then
    match s.err.injections.find? fun j => decide (j.id.toNat = n) with
    | none => s.reply r .badFormat []
    | some j =>
      ({ s with err := { s.err with injections := s.err.injections.erase j } }).reply r .ok
        (beBytes 4 j.id.toNat ++ beBytes 4 j.locs.length)
  else
    let wide := bit flags 1
    let known := detKnown det && if wide then s.fuses.hasDie l.die && (!(detOnTile det) || decide (l.die < 24)) else s.locOk det l
    if !known ∨ (mode = 0 ∧ (n ≠ 0 ∨ period ≠ 0)) ∨ (mode = 1 ∧ (n = 0 ∨ period = 0)) then s.reply r .badFormat []
    else if 16 ≤ s.err.injections.length then s.reply r .busy []
    else if s.lifeCycle = 4 ∨ (detResets det && !(bit flags 2)) then s.reply r .refused []
    else
      let locs := if wide then s.dieWide det l else [l]
      let j : Injection := { id := s.err.nextInj, det := det, locs := locs, noRepair := bit flags 0,
                             left := locs.map fun _ => if mode = 0 then 1 else n, period := period }
      ({ s with err := { s.err with injections := if locs.isEmpty then s.err.injections else s.err.injections ++ [j],
                                    nextInj := s.err.nextInj + 1 } }).reply r .ok (beBytes 4 j.id.toNat ++ beBytes 4 locs.length)

def execOnceInject (f : VFrame) (s : State) : Host.Outcome State Fault Refusal := .next (finish s (s.vorlaIn 0x63 f State.injectReq))
def execCountInject (f : VFrame) (s : State) : Host.Outcome State Fault Refusal := .next (finish s (s.vorlaIn 0x63 f State.injectReq))
def execStopInject (f : VFrame) (s : State) : Host.Outcome State Fault Refusal := .next (finish s (s.vorlaIn 0x63 f State.injectReq))

/-- The partition an injected event at a location belongs to. -/
def State.hitPart (s : State) (l : Loc) : Nat := if l.px = 0xFF then 0 else s.partAt l.px l.py

/-- The partition of a connection on a port: an event of the port's frames or connections belongs to it (Table 11-11). -/
def State.portPart (s : State) (port : Nat) : Nat :=
  match s.trib.conns.find? fun k => decide (k.port = port) with
  | some k => k.part
  | none => 0

/-- Partitions whose requesters the fork buffer and the reissue queue of a router list (Table 8-11, 0x0303). -/
def State.forkParts (s : State) (px py : Nat) : List Nat :=
  let r := s.router px py
  (((r.fork.map (·.2)) ++ r.reissue).map Flit.part).eraseDups

/-- What a detector does on a corrupted item: the path of its own rule where it has one beyond its class (R130, R376, R437, R438), and
otherwise its class's action. A corrupted link word of 0x0402 is one of a header, and 0x0407 is a parity error of the router's control (log 135).
At an instance of subsystem 16 that stands at no tile, UNIT is the partition (log 135). At 0x0D11 and 0x0D12 it names the register or journal entry whose copies fail (log 136). -/
def State.detectorActs (s : State) (det : Nat) (l : Loc) (syn : List Byte) : State :=
  let p := if det / 256 = 0x0A then s.portPart l.unit else if det / 256 = 0x10 ∧ l.px = 0xFF then l.unit else s.hitPart l
  let onTile := fun (f : TileState → TileState) => match s.logicalAt l.px l.py with
    | some t => s.updTile t f
    | none => s
  let hit : Hit := { det := det, loc := l, part := p, syn := syn, place := l.unit }
  match det with
  | 0x0101 | 0x0102 | 0x0103 => (onTile TileState.arrayStop).raise hit
  | 0x0222 =>
    match s.logicalAt l.px l.py with
    | some t =>
      let x := s.tile t
      let d := DrawWords.ofWords (x.vq.getD 0 0) (x.vq.getD 1 0) (x.vq.getD 2 0) (x.vq.getD 3 0)
      if x.drawBusy && d.usesRecords && decide (x.drawRows.toNat < d.nrows) then
        (s.drawRow p t d (x.sram.write (d.recAddr x.drawRows.toNat + 7) [0x80])).drawEnd p t d
      else s.raise hit
    | none => s.raise hit
  | 0x0303 =>
    match s.forkParts l.px l.py with
    | [] => s.raise hit
    | ps => ps.foldl (fun s q => s.raise { hit with part := q }) s
  | 0x0402 | 0x0407 => s.raise { hit with cls := some 4 }
  | 0x0901 | 0x0902 | 0x0905 | 0x0906 => (onTile TileState.seqHalt).raise hit
  | 0x0903 | 0x0904 => ((onTile TileState.seqHalt).raise hit).endJob p .badFormat
  | 0x0602 =>
    (onTile fun x => { x with ferry := { x.ferry with tlb := x.ferry.tlb.eraseIdx l.unit } }).raise hit
  | 0x0701 => (onTile fun x => { x with checkErr := true, riffleStop := true }).raise hit
  | 0x0702 | 0x0703 => (onTile fun x => { x with romErr := true, riffleStop := true }).raise hit
  | 0x0704 => (onTile fun x => { x with katFail := true, riffleStop := true }).raise hit
  | 0x0801 => s.pairFailed l.unit 1 det
  | 0x0802 => s.pairFailed l.unit 2 det
  | 0x0804 => s.katFailed 4
  | 0x0805 => s.katFailed 5
  | 0x0807 => s.katFailed 6
  | 0x0410 | 0x0412 => (s.raise hit).endJob p .badFormat
  | 0x0501 =>
    let v := s.takeFree
    let hpa := l.unit * 2 ^ 36 + v.1.toNat % 2 ^ 36
    v.2.raise { hit with part := (v.2.frameOwner (hpa / 2 ^ 21)).1, place := hpa / 2 ^ 14 * 2 ^ 14 }
  | 0x0502 =>
    let v := s.takeFree
    let hpa := l.unit * 2 ^ 36 + v.1.toNat % 2 ^ 36
    let s : State := { v.2 with hbm := { v.2.hbm with poisoned := hpa / 256 :: v.2.hbm.poisoned } }
    s.raise { hit with part := (s.frameOwner (hpa / 2 ^ 21)).1, place := hpa / 2 ^ 21 }
  | 0x0504 => s.loseStack l.unit
  | 0x0E08 => s.pllLost l.die (decide (l.unit = 1))
  | 0x0C01 | 0x0C03 | 0x0C04 => s.mgtRestart det
  | 0x0D11 | 0x0D12 =>
    let named := decide (l.unit < 512) || decide (l.unit - 512 < s.journal.jobs.length)
    if !named then s.raise hit
    else
      let s := s.almFail l.unit (decide (det = 0x0D12))
      if l.unit < 512 then s.almCheck l.unit else s.journalRead
  | 0x1002 =>
    match s.pairOf p with
    | some _ => ((s.raise hit).endJob p .peerLost).unpair p
    | none => s.raise hit
  | 0x1003 =>
    match s.pairOf p with
    | some _ => (s.raise hit).endJob p .refused
    | none => s.raise hit
  | 0x1001 =>
    match s.pairOf p with
    | some pr =>
      let step := (s.meridian p).toNat
      ((s.raise hit).lsSend p pr (lsPayload pr.pairId 2 step 0 [])).freeze p step true
    | none => s.raise hit
  | 0x1004 =>
    match s.pairOf p with
    | some pr =>
      let step := (s.meridian p).toNat
      ((s.raise hit).lsSend p pr (lsPayload pr.pairId 2 step 0 [])).freeze p step false
    | none => (s.raise hit).updRun p fun r => { r with digestBad := true }
  | 0x0F04 =>
    let s := s.raise hit
    let d := s.err.inst (field syn 0 2) l
    { s with err := s.err.setInst { d with inexact := true } }
  | _ => s.raise hit

/-- Position n of a list lowered by one. -/
def countDown (n : Nat) (xs : List Nat) : List Nat := xs.mapIdx fun i x => if i = n then x - 1 else x

/-- An armed injection point corrupts its item, and the detector acts (R490). -/
def execInjectedEvent (inj : BitVec 32) (index : Nat) (syndrome : List Byte) (s : State) : Host.Outcome State Fault Refusal :=
  .next (finish s (
    match s.err.injections.find? fun j => decide (j.id = inj) with
    | none => s
    | some j =>
      match j.locs[index]? with
      | none => s
      | some l =>
        if j.left.getD index 0 = 0 then s
        else
          let j' : Injection := { j with left := countDown index j.left }
          let js := s.err.injections.map fun (q : Injection) => if q.id = inj then j' else q
          let js := js.filter fun q => q.left.any fun n => decide (n ≠ 0)
          let s : State := { s with err := { s.err with injections := js, injecting := some j.noRepair } }
          let s := s.detectorActs j.det l syndrome
          { s with err := { s.err with injecting := none } }))

/-! ## Units under test (R365, R491) -/

/-- A test of a subsystem has an intrusive part (Table 17-12). -/
def testIntrusive (what : Nat) : Bool := decide (what ∈ [1, 2, 4, 5, 9, 10, 0x106])

/-- A test's unit numbers are physical tiles. -/
def testOnTiles (what : Nat) : Bool := decide (what ∈ [1, 2, 3, 6, 7, 9])

/-- Southern or western tile of a stitch link by its number (R336); none for the links past the die edges' 456. -/
def linkTile (n : Nat) : Option (Nat × Nat) :=
  let e := n / 12
  let j := n % 12
  if e < 20 then some (e % 4 * 12 + j, e / 4 * 13 + 12)
  else if e < 38 then some ((e - 20) % 3 * 12 + 11, (e - 20) / 3 * 13 + j)
  else none

/-- Dies of a unit. -/
def unitDies (what u : Nat) : List Nat :=
  if testOnTiles what then [dieAt (u % 48) (u / 48)]
  else match what with
    | 4 | 0x106 => match linkTile u with
      | some q => [dieAt q.1 q.2, if u / 12 < 20 then dieAt q.1 (q.2 + 1) else dieAt (q.1 + 1) q.2]
      | none => []
    | 5 => (List.range 24).filter fun d => decide ((dieSites d).1 = u ∨ (dieSites d).2 = u)
    | 10 => if u < 0x18 then [u] else []
    | 12 | 14 => [u]
    | _ => []

/-- Partitions that a unit serves. -/
def State.unitParts (s : State) (what u : Nat) : List Nat :=
  if testOnTiles what then [s.partAt (u % 48) (u / 48)].filter fun p => decide (p ≠ 0)
  else match what with
    | 4 | 0x106 => match linkTile u with
      | some q => [s.partAt q.1 q.2].filter fun p => decide (p ≠ 0)
      | none => []
    | 5 => (s.parts.filter fun e => e.2.ptes.any fun q => pteValid q.2 &&
        (if ptePar q.2 then decide (pteFrame q.2 / 2 ^ 18 = u / 8) else decide (pteFrame q.2 / 2 ^ 15 = u))).map (·.1)
    | 10 => (s.parts.filter fun e => e.2.share.any fun q => decide (q.1 = u)).map (·.1)
    | _ => []

/-- Every unit of a subsystem: tiles, links, stacks, ports, pairs and sentinels, stewards, dies (R365, R436). -/
def State.allUnits (s : State) (what : Nat) : List Nat :=
  if testOnTiles what then
    ((List.range 24).flatMap dieTiles).filterMap fun q => if s.enabled q.1 q.2 then some (physIx q.1 q.2) else none
  else match what with
    | 4 | 0x106 => List.range 464
    | 5 => (List.range 48).filter s.fuses.hasStack
    | 8 => List.range 40
    | 10 => (List.range 0x40).filter s.fuses.hasPort
    | 11 => [0, 1]
    | 12 => s.fuses.stewardDies
    | 14 => List.range 24
    | _ => [0]

/-- The units in scope. -/
def State.testUnits (s : State) (what kind id : Nat) : List Nat :=
  (s.allUnits what).filter fun u =>
    match kind with
    | 0 => true
    | 1 => (s.unitParts what u).contains id
    | _ => (unitDies what u).contains id

/-- The detector that a failing unit counts at (R492). -/
def testDet (what : Nat) : Nat :=
  match what with
  | 1 => 0x0103 | 2 => 0x0202 | 3 => 0x0302 | 4 | 0x106 => 0x0403 | 5 => 0x0507 | 6 => 0x0603 | 7 => 0x0704 | 8 => 0x0803
  | 9 => 0x0905 | 10 => 0x0A06 | 11 => 0x0B04 | 12 => 0x0C05 | 13 => 0x0D06 | 14 => 0x0E0B | 15 => 0x0F04 | _ => 0x1004

/-- Location of a unit. -/
def unitLoc (what u : Nat) : Loc :=
  if testOnTiles what then Loc.at (u % 48) (u / 48)
  else match what with
    | 4 | 0x106 => match linkTile u with
      | some q => { Loc.at q.1 q.2 with unit := u }
      | none => { unit := u }
    | 12 | 14 => { die := u }
    | 5 => { unit := u }
    | 10 => portLoc u
    | _ => { die := 0x40, unit := u }

/-- Failing units: each counts as a lasting event of its detector (R481, R492). -/
def State.failUnits (s : State) (what : Nat) (us : List Nat) : State :=
  us.foldl (fun s u =>
    let l := unitLoc what u
    let s := if what = 7 then match s.logicalAt l.px l.py with
        | some t => s.updTile t fun x => { x with katFail := true, riffleStop := true }
        | none => s
      else s
    let h : Hit := { det := testDet what, loc := l, part := s.hitPart l, place := u, lasting := true }
    s.raise h) s

/-- SELFTEST of Headwater (R436): the known-answer tests, the startup test on disabled pairs, the way back to the pairs. Units 0 to 15
are pairs, 16 to 39 sentinels, 40 and 41 the conditioner and the expander. -/
def State.testHeadwater (s : State) (failed : List Nat) : State :=
  if failed.contains 40 then s.katFailed 4
  else if failed.contains 41 then s.katFailed 5
  else
    let back := (List.range 16).filter fun k => !(s.ent.pairEn.getLsbD k) && !(failed.contains k) && !(s.repairs.contains (repairEntry 6 k))
    let bad := (List.range 16).filter fun k => !(s.ent.pairEn.getLsbD k) && failed.contains k
    let s := s.failUnits 8 bad
    let e : EntropyState := { s.ent with pairEn := back.foldl (fun n k => n ||| BitVec.ofNat 16 (2 ^ k)) s.ent.pairEn }
    let e := e.noteStartup 16 (bad.foldl (fun n k => n - 2 ^ k) 65535)
    let s : State := { s with ent := e }
    if e.state = .run ∧ e.source ∧ 12 ≤ e.pairs then { s with ent := e.enterRun false }
    else if e.state = .failed then
      if 12 ≤ e.pairs then { s with ent := e.enterRun false }
      else if s.stewardsRun then { s with ent := { e with state := .switching, readmit := true } }
      else s
    else s

/-! ## SELFTEST -/

/-- The scope of a request exists. -/
def State.scopeOk (s : State) (kind id : Nat) : Bool :=
  match kind with
  | 0 => decide (id = 0)
  | 1 => s.parts.has id
  | 2 => decide (id < 24)
  | _ => false

/-- The intrusive part as it is deferred: what serves no partition is tested now, the rest at its partitions' job boundaries. -/
def State.deferTest (s : State) (what kind id : Nat) (failed : List Nat) : BitVec 32 × State :=
  let us := s.testUnits what kind id
  let parts := (us.flatMap (s.unitParts what)).eraseDups
  let free := us.filter fun u => (s.unitParts what u).isEmpty
  let bad := free.filter failed.contains
  let d : Deferred := { id := s.err.nextTest, what := what, scopeKind := kind, scopeId := id, parts := parts,
                        passed := free.length - bad.length, failed := bad.length }
  let s := s.failUnits what bad
  (d.id, { s with err := { s.err with nextTest := s.err.nextTest + 1, deferred := s.err.deferred ++ [d] } })

/-- A deferred test that no partition holds up is reported at once. -/
def State.reportFree (s : State) (id : BitVec 32) : State :=
  match s.err.deferred.find? fun d => decide (d.id = id) with
  | some d => if d.parts.isEmpty then ({ s with err := { s.err with deferred := s.err.deferred.erase d } }).testDone d 0 .ok else s
  | none => s

def State.selftestReq (failed : List Nat) (r : Req) (s : State) : State :=
  let b := r.payload
  let what := field b 0 1
  let kind := field b 1 1
  let id := field b 2 2
  if b.length ≠ 4 ∨ what = 0 ∨ 16 < what ∨ !(s.scopeOk kind id) then s.reply r .badFormat []
  else if testIntrusive what then
    let d := s.deferTest what kind id failed
    ((d.2.reply r .deferred (beBytes 4 d.1.toNat ++ List.replicate 8 0))).reportFree d.1
  else
    let us := s.testUnits what kind id
    let bad := us.filter failed.contains
    let t := s.err.nextTest
    let s : State := { s with err := { s.err with nextTest := t + 1 } }
    let s := if what = 8 then s.testHeadwater failed else s.failUnits what bad
    s.reply r .ok (beBytes 4 t.toNat ++ beBytes 4 (us.length - bad.length) ++ beBytes 4 bad.length)

def execSelftest (f : VFrame) (failed : List Nat) (s : State) : Host.Outcome State Fault Refusal :=
  .next (finish s (s.vorlaIn 0x71 f (State.selftestReq failed)))

/-- The intrusive part of a deferred test at a partition's job boundary, outside an emergency (R491, R492). A unit that serves several
partitions is tested and counted with the first of them. -/
def execIntrusivePart (test : BitVec 32) (part : Nat) (failed : List Nat) (s : State) : Host.Outcome State Fault Refusal :=
  .next (finish s (
    match s.err.deferred.find? fun d => decide (d.id = test) with
    | none => s
    | some d =>
      if !(d.parts.contains part) || !(s.atBoundary part) || s.power.emergency then s
      else
        let us := (s.testUnits d.what d.scopeKind d.scopeId).filter fun u => decide ((s.unitParts d.what u).head? = some part)
        let bad := us.filter failed.contains
        let d' : Deferred := { d with parts := d.parts.erase part, passed := d.passed + (us.length - bad.length),
                                      failed := d.failed + bad.length }
        let ds := s.err.deferred.map fun (q : Deferred) => if q.id = test then d' else q
        let s : State := { s with err := { s.err with deferred := ds.filter fun q => !q.parts.isEmpty } }
        (s.failUnits d.what bad).testDone d' part .ok))

/-! ## CALIBRATE (R366, R464-R468) -/

/-- SLOW of the dies in scope. -/
def State.slowList (s : State) (kind id : Nat) : List Byte :=
  (List.range 24).flatMap fun n => beBytes 4 (if kind = 0 ∨ n = id then s.dieSlow n else 0)

/-- The scan of REPLAN brings SLOW of every die up to date. -/
def State.scanAll (s : State) : State :=
  (List.range 24).foldl (fun s n => s.updDie n fun d => { d with slow := BitVec.ofNat 24 (sat 24 (s.dieSlow n)) }) s

/-- A bank can take no more plans (R394). -/
def State.bankWorn (s : State) (base : Nat) : Bool := (List.range 64).any fun i => (s.preg (base + i)).worn

/-- REPLAN (R466, R467). -/
def State.replanReq (s : State) (r : Req) : State :=
  let s := s.scanAll
  if s.bankWorn s.nextBank then s.reply r .worn (beBytes 4 0)
  else if !s.planDue then s.reply r .busy (beBytes 4 0)
  else
    let bank := s.nextBank
    let t := s.writePlan true
    t.reply r .ok (beBytes 4 0 ++ beBytes 4 (t.planNo bank) ++ beBytes 1 (if bank = 256 then 0 else 1) ++ [0, 0, 0] ++ t.slowList 0 0)

/-- TRIB_CFG keeps its reserved bits and ranges (Table 11-10). -/
def tribCfgOk (v : Nat) : Bool :=
  decide (bits v 47 44 = 0) && decide (bits v 31 29 ≤ 5) && decide (bits v 28 24 = 0) && decide (10 ≤ bits v 23 16) &&
    decide (3 ≤ bits v 15 8 ∧ bits v 15 8 ≤ 15) && decide (bits v 7 0 = 0)

/-- A connection is open on a port, or on any port (R314, R366). -/
def State.portOpen (s : State) (port : Option Nat) : Bool :=
  s.trib.conns.any fun k => k.openAcked && k.openGot && match port with
    | some q => decide (k.port = q)
    | none => true

/-- PORT_CONFIG (R314, R366): panel-wide fields in registers 32 to 34, a port's in its two registers. -/
def State.portConfigReq (s : State) (r : Req) : State :=
  let b := r.payload
  let id := field b 1 1
  let cfg := field b 29 8
  if b.length ≠ 37 ∨ field b 2 3 ≠ 0 ∨ field b 7 2 ≠ 0 ∨ field b 27 2 ≠ 0 then s.reply r .badFormat []
  else if id = 0xFF then
    if s.portOpen none then s.reply r .busy (beBytes 4 0)
    else if [32, 33, 34].any fun n => (s.preg n).worn then s.reply r .worn (beBytes 4 0)
    else
      let no := field b 5 2
      let s := s.pregWriteWatched 32 (BitVec.ofNat 64 (2 ^ 63 + no))
      let s := s.pregWriteWatched 33 (BitVec.ofNat 64 (field b 9 8))
      let s := s.pregWriteWatched 34 (BitVec.ofNat 64 (field b 17 4 * 2 ^ 32))
      ({ s with panelNo := some (BitVec.ofNat 16 no) }).reply r .ok (beBytes 4 0)
  else if !(s.fuses.hasPort id) ∨ !(tribCfgOk cfg) then s.reply r .badFormat []
  else if s.portOpen (some id) then s.reply r .busy (beBytes 4 0)
  else
    let n := 40 + 2 * portIx id
    if (s.preg n).worn ∨ (s.preg (n + 1)).worn then s.reply r .worn (beBytes 4 0)
    else
      let gw := field b 21 6
      let s := (s.pregWriteWatched n (BitVec.ofNat 64 cfg)).pregWriteWatched (n + 1) (BitVec.ofNat 64 gw)
      let p : TPort := { s.trib.ports.getD id {} with cfg := BitVec.ofNat 64 cfg, gateway := BitVec.ofNat 48 gw }
      ({ s with trib := { s.trib with ports := s.trib.ports.set id p } }).reply r .ok (beBytes 4 0)

/-- A CALIBRATE of another KIND (Table 16-13). -/
def State.calibrateKind (s : State) (r : Req) : State :=
  let b := r.payload
  let kind := field b 1 1
  let id := field b 2 2
  let arg := fun n => field b (4 + n)
  let ok := fun (s : State) => s.reply r .ok (beBytes 4 0)
  let bad := s.reply r .badFormat []
  if b.length ≠ 16 ∨ !(kind = 0 ∨ kind = 2) ∨ !(s.scopeOk kind id) then bad
  else
    match field b 0 1 with
    | 1 => if zeroBytes b 4 12 then s.reply r .ok (beBytes 4 0 ++ s.slowList kind id) else bad
    | 2 => if zeroBytes b 4 12 && decide (kind = 0) then s.replanReq r else bad
    | 3 =>
      if 30 ≤ arg 0 2 && arg 0 2 ≤ 145 && zeroBytes b 6 10 then
        ok { s with power := { s.power with budget := BitVec.ofNat 16 (arg 0 2) } } else bad
    | 4 =>
      if 70 ≤ arg 0 1 && arg 0 1 ≤ 100 && zeroBytes b 5 11 then
        ok { s with power := { s.power with throttle := BitVec.ofNat 8 (arg 0 1) } } else bad
    | 5 =>
      let deep := arg 0 4
      let pll := arg 4 2
      if (deep = 0 || (100 ≤ deep && deep ≤ 3600000)) && 100 ≤ pll && zeroBytes b 10 6 then
        ok { s with power := { s.power with deepAfter := BitVec.ofNat 32 deep, pllSleep := BitVec.ofNat 16 pll } } else bad
    | 6 =>
      if kind = 2 && zeroBytes b 4 12 then
        let d := s.deferTest 0x106 kind id []
        (d.2.reply r .deferred (beBytes 4 d.1.toNat)).reportFree d.1
      else bad
    | _ => bad

def State.calibrateReq (r : Req) (s : State) : State :=
  if field r.payload 0 1 = 0x80 then s.portConfigReq r else s.calibrateKind r

def execAgeScan (f : VFrame) (s : State) : Host.Outcome State Fault Refusal := .next (finish s (s.vorlaIn 0x72 f State.calibrateReq))
def execReplan (f : VFrame) (s : State) : Host.Outcome State Fault Refusal := .next (finish s (s.vorlaIn 0x72 f State.calibrateReq))
def execPowerBudget (f : VFrame) (s : State) : Host.Outcome State Fault Refusal := .next (finish s (s.vorlaIn 0x72 f State.calibrateReq))
def execThrottleTarget (f : VFrame) (s : State) : Host.Outcome State Fault Refusal :=
  .next (finish s (s.vorlaIn 0x72 f State.calibrateReq))
def execIdlePolicy (f : VFrame) (s : State) : Host.Outcome State Fault Refusal := .next (finish s (s.vorlaIn 0x72 f State.calibrateReq))
def execPhyRetrain (f : VFrame) (s : State) : Host.Outcome State Fault Refusal := .next (finish s (s.vorlaIn 0x72 f State.calibrateReq))
def execPortConfig (f : VFrame) (s : State) : Host.Outcome State Fault Refusal := .next (finish s (s.vorlaIn 0x72 f State.calibrateReq))

end Sys2Proof.Machine
end

