-- ==== Sys2Proof/Machine/Registers.lean ====
section
/-! DEFINITION. A write to a register by its access code (R9, R11): fields that a write reaches, and registers that only another operation
writes. -/

namespace Sys2Proof.Machine

/-- FP_STATUS: bits 3 to 0 are cleared by writing 1 (Table 2-7). -/
def TileState.clearFp (x : TileState) (v : Word) : TileState := { x with fp := x.fp &&& ~~~(v.setWidth 32 &&& 0xF) }

/-- RIFFLE_STATUS: CHECK_ERR, ROM_ERR and KAT_FAIL are cleared by writing 1 (Table 5-9). -/
def TileState.clearRiffle (x : TileState) (v : Word) : TileState :=
  { x with checkErr := x.checkErr && !(bit v.toNat 31), romErr := x.romErr && !(bit v.toNat 30), katFail := x.katFail && !(bit v.toNat 29) }

/-- EYEPIECE: ISEQ_FROM and LEVEL; the reserved level 3 leaves LEVEL as it is (Table 10-7). -/
def TileState.writeEyepiece (x : TileState) (v : Word) : TileState :=
  let l := bits v.toNat 1 0
  x.setLevel (if l = 3 then eyeLevel x.eyepiece else l) (bits v.toNat 63 32)

/-- ROUTER_CTRL: bits 7 to 4 (Table 8-9). -/
def State.writeRouterCtrl (s : State) (x y : Nat) (v : Word) : State :=
  if x < 48 ∧ y < 78 then s.updRouter x y fun r => { r with ctrl := v.setWidth 32 &&& 0xF0 } else s

/-- TRIB_CFG: its fields, while the port carries no open connection; a value outside Table 11-10 is not taken (R314). -/
def State.writeTribCfg (s : State) (id : Nat) (v : Word) : State :=
  let cfg := v &&& 0xFFFF0FFFE0FFFF00
  if s.fuses.hasPort id && !(s.portOpen (some id)) && tribCfgOk cfg.toNat then
    { s with trib := { s.trib with ports := s.trib.ports.set id { s.trib.ports.getD id {} with cfg := cfg } } }
  else s

/-- The bits of a repair-list or Ephemeris register that hold a field; the rest are reserved and read 0 (R11, Tables 16-12, 17-10). -/
def pregMask (n : Nat) : Word :=
  if n < 256 then 0xF01FFFFFF01FFFFF
  else
    let k := n % 64
    if k = 0 then 0xFFFFFFFFFFFF0000
    else if k ≤ 24 then 0xFFFFFFFFFF000000
    else if k < 63 then 0 else BitVec.allOnes 64

/-- A persistent register: the registers whose field maps a write reaches are the repair list and the Ephemeris banks (Tables 16-12, 17-10);
every other one is written by its owner's own operation only (R392). -/
def State.writePersistent (s : State) (n : Nat) (v : Word) : State :=
  if 152 ≤ n ∧ n < 384 then s.pregWriteWatched n (v &&& pregMask n) else s

/-- The effect of a write. -/
def State.registerWrite (s : State) (reg : RegId) (v : Word) : State :=
  match reg with
  | .fpStatus t => s.updTile t fun x => x.clearFp v
  | .riffleStatus t => s.updTile t fun x => x.clearRiffle v
  | .seqProgress t => s.writeTraceRd t (bits v.toNat 15 0)
  | .eyepiece t => s.updTile t fun x => x.writeEyepiece v
  | .routerCtrl x y => s.writeRouterCtrl x y v
  | .tribCfg port => s.writeTribCfg port v
  | .resetCause => { s with power := { s.power with resetCause := (v.setWidth 8).setWidth 32 } }
  | .persistent n => s.writePersistent n v
  | .accStatus _ | .accCtrl _ | .riffleSeedHi _ | .riffleSeedLo _ | .seqStatus _ | .seqConflict _ | .drawProgress _ | .ferryStatus _
  | .routerCount _ _ | .census _ | .meridian _ | .hwStatus | .hwPool | .pwrStatus | .diePwr _ | .spillway => s

def execRegisterWrite (reg : RegId) (v : Word) (s : State) : Host.Outcome State Fault Refusal :=
  .next (finish s (s.registerWrite reg v))

end Sys2Proof.Machine
end

