-- ==== Sys2Proof/Machine/Serve.lean ====
section
/-! DEFINITION. ENTROPY_GET, and the requests that wait: for Headwater (R432, R433, R439-R441) and for the exit from deep idle
(R452). -/

namespace Sys2Proof.Machine

/-! ## ENTROPY_GET (R440, R441) -/

/-- The reply: HW_STATUS at that time, COUNT, and the bytes sealed. -/
def State.entropyReply (s : State) (r : Req) (st : Status) (bs : List Byte) : State :=
  let body := beBytes 8 s.ent.status.toNat ++ beBytes 2 bs.length ++ List.replicate 6 0
  if bs.isEmpty then s.reply r st body else s.replySealed r st (body ++ bs) 16

/-- n conditioned blocks, without the expander (R440). -/
def EntropyState.blocks : Nat → EntropyState → List Byte × EntropyState
  | 0, e => ([], e)
  | n + 1, e =>
    let a := e.block
    let b := EntropyState.blocks n a.2
    (a.1 ++ b.1, b.2)

def State.entropyGet (r : Req) (s : State) : State :=
  let b := r.payload
  let n := field b 0 2
  let flags := field b 2 1
  if b.length ≠ 8 ∨ 2 ≤ flags ∨ !(zeroBytes b 3 5) ∨ n = 0 ∨ 4096 < n ∨ (flags = 1 ∧ 256 < n) then s.entropyReply r .badFormat []
  else
    match s.ent.state with
    | .failed => s.entropyReply r .entropyFail []
    | .run =>
      let d := if flags = 1 then EntropyState.blocks ((n + 31) / 32) s.ent else s.ent.output n
      ({ s with ent := d.2 }).entropyReply r .ok (d.1.take n)
    | _ => { s with ent := { s.ent with waiters := s.ent.waiters ++ [r.waiter] } }

def execEntropyGet (f : VFrame) (s : State) : Host.Outcome State Fault Refusal := .next (finish s (s.vorlaIn 0x70 f State.entropyGet))

/-- 50 ms have passed for the oldest ENTROPY_GET that waits on a mailbox (R441). -/
def execEntropyGetTimeout (mailbox : Nat) (s : State) : Host.Outcome State Fault Refusal :=
  .next (finish s (
    match s.ent.waiters.find? fun w => decide (w.opcode = 0x70 ∧ w.box = mailbox) with
    | none => s
    | some w =>
      let s : State := { s with ent := { s.ent with waiters := s.ent.waiters.erase w } }
      s.entropyReply w.req (if s.ent.state = .failed then .entropyFail else .notReady) []))

/-! ## Requests that wait -/

/-- The handler of a request by its opcode (Table 12-7), but for the two that change which partitions exist. -/
def State.handleOther (s : State) (r : Req) : State :=
  match r.opcode with
  | 0x10 => s.loadBeginReq r
  | 0x11 => s.loadChunkReq r
  | 0x12 => s.loadEndReq r
  | 0x13 => s.fwStage r
  | 0x14 => s.fwActivateReq r
  | 0x20 => s.sessionOpen r
  | 0x21 => s.attest r
  | 0x22 => s.keyRotate r
  | 0x23 => s.weightBind r
  | 0x32 => s.partQueryReq r
  | 0x40 => s.jobSubmitReq r
  | 0x43 => s.jobCancelReq r
  | 0x50 => s.ckptSaveReq r
  | 0x51 => s.ckptRestoreReq r
  | 0x52 => s.preemptReq r
  | 0x53 => s.resumeReq r
  | 0x60 => s.logReadReq r
  | 0x61 => s.traceSetReq r
  | 0x62 => s.errRead r
  | 0x63 => s.injectReq r
  | 0x70 => s.entropyGet r
  | 0x71 => s.selftestReq [] r
  | 0x72 => s.calibrateReq r
  | 0x73 => s.lockstepReq r
  | 0x80 => s.persistReadReq r
  | 0x81 => s.persistWriteReq r
  | 0x82 => s.journalReq r
  | _ => s

/-- The handler of a request by its opcode; only PART_CREATE and PART_DESTROY change the rectangles (R28). -/
def State.handle (s : State) (r : Req) : State :=
  match r.opcode with
  | 0x30 => s.partCreateReq r
  | 0x31 => s.partDestroyReq r
  | _ => (s.handleOther r).shaped s.fuses s.geom

/-- Class of a request that waits for Headwater (Table 15-3). -/
def Waiter.cls (w : Waiter) : Nat :=
  match w.opcode with
  | 0x20 => if 2 ≤ field w.payload 0 1 then 2 else 1
  | 0x21 => 3
  | 0x40 => 5
  | 0x70 => 6
  | _ => 1

/-- The request served next: the lowest class, oldest first; within class 6 the mailboxes take turns (R439). -/
def EntropyState.nextWaiter (e : EntropyState) : Option Waiter :=
  let turn := fun (w : Waiter) => (w.box + 65 - (e.lastBox + 1)) % 65
  let rank := fun (w : Waiter) => w.cls * 128 + (if w.cls = 6 then turn w else 0)
  e.waiters.foldl (fun b w =>
    match b with
    | none => some w
    | some x => if rank w < rank x then some w else some x) none

/-- Requests that wait are served while output flows. -/
def State.serveWaiters : Nat → State → State
  | 0, s => s
  | n + 1, s =>
    if s.ent.state = .run then
      match s.ent.nextWaiter with
      | none => s
      | some w =>
        let s : State := { s with ent := { s.ent with waiters := s.ent.waiters.erase w,
                                                       lastBox := if w.cls = 6 then w.box else s.ent.lastBox } }
        State.serveWaiters n (s.handle w.req)
    else s

/-- The expander reseeds (R432, R433), and what waits for output is served (R439). -/
def execExpSeed (s : State) : Host.Outcome State Fault Refusal :=
  .next (finishGeom s (
    if s.ent.state = .run then
      let t : State := { s with ent := s.ent.seed }
      State.serveWaiters t.ent.waiters.length t
    else s))

/-- Requests that asked for the exit from deep idle, served in order (R452). -/
def State.serveWakers (s : State) (ws : List Waiter) : State := ws.foldl (fun s w => s.handle w.req) s

/-- The exit from deep idle (R452): clocks, rails and ports come back, and the requests that asked for it are served in order. -/
def execDeepIdleExit (s : State) : Host.Outcome State Fault Refusal :=
  .next (finishGeom s (if s.power.deepIdle then s.leaveDeepIdle.serveWakers s.power.wakers else s))

/-- One patrol-scrub pass over every stack (R453): it ends where it began, every block read. -/
def State.scrubAll (s : State) : State :=
  { s with hbm := { s.hbm with stackTab := s.hbm.stackTab.mapVals fun k => { k with scrub := 0 } } }

/-- After 20 h in deep idle the panel wakes by itself and runs one patrol-scrub pass over every stack (R453). -/
def execScrubWake (s : State) : Host.Outcome State Fault Refusal :=
  .next (finishGeom s (if s.power.deepIdle then s.leaveDeepIdle.scrubAll.serveWakers s.power.wakers else s))

end Sys2Proof.Machine
end

