-- ==== Sys2Proof/Machine/Dispatch.lean ====
section
/-! DEFINITION. The dispatch of commands to their meanings, one arm per constructor. -/

namespace Sys2Proof.Machine

def exec (i : Instr) (s : State) : Host.Outcome State Fault Refusal :=
  match i with
  | .endStream tile => Sys2Proof.Machine.execEndStream tile s
  | .mma tile w0 w1 => Sys2Proof.Machine.execMma tile w0 w1 s
  | .retire tile => Sys2Proof.Machine.execRetire tile s
  | .spillCombine tile => Sys2Proof.Machine.execSpillCombine tile s
  | .accLd tile w0 => Sys2Proof.Machine.execAccLd tile w0 s
  | .drain tile stepIdx w0 w1 w2 => Sys2Proof.Machine.execDrain tile stepIdx w0 w1 w2 s
  | .drainDone tile => Sys2Proof.Machine.execDrainDone tile s
  | .accCtrl tile v => Sys2Proof.Machine.execAccCtrl tile v s
  | .chainOp tile w0 w1 w2 => Sys2Proof.Machine.execChainOp tile w0 w1 w2 s
  | .readyToken tile chain atV => Sys2Proof.Machine.execReadyToken tile chain atV s
  | .legStart tile => Sys2Proof.Machine.execLegStart tile s
  | .chainFlit tile => Sys2Proof.Machine.execChainFlit tile s
  | .rawBits tile stepIdx w0 w1 w2 w3 => Sys2Proof.Machine.execRawBits tile stepIdx w0 w1 w2 w3 s
  | .unif01 tile stepIdx w0 w1 w2 w3 => Sys2Proof.Machine.execUnif01 tile stepIdx w0 w1 w2 w3 s
  | .unifOpen tile stepIdx w0 w1 w2 w3 => Sys2Proof.Machine.execUnifOpen tile stepIdx w0 w1 w2 w3 s
  | .unif0164 tile stepIdx w0 w1 w2 w3 => Sys2Proof.Machine.execUnif0164 tile stepIdx w0 w1 w2 w3 s
  | .uintBelow tile stepIdx w0 w1 w2 w3 => Sys2Proof.Machine.execUintBelow tile stepIdx w0 w1 w2 w3 s
  | .bernoulli tile stepIdx w0 w1 w2 w3 => Sys2Proof.Machine.execBernoulli tile stepIdx w0 w1 w2 w3 s
  | .normalDraw tile stepIdx w0 w1 w2 w3 => Sys2Proof.Machine.execNormalDraw tile stepIdx w0 w1 w2 w3 s
  | .truncNormal tile stepIdx w0 w1 w2 w3 => Sys2Proof.Machine.execTruncNormal tile stepIdx w0 w1 w2 w3 s
  | .exponentialDraw tile stepIdx w0 w1 w2 w3 => Sys2Proof.Machine.execExponentialDraw tile stepIdx w0 w1 w2 w3 s
  | .gumbelDraw tile stepIdx w0 w1 w2 w3 => Sys2Proof.Machine.execGumbelDraw tile stepIdx w0 w1 w2 w3 s
  | .wholeRow tile w0 w1 w2 w3 => Sys2Proof.Machine.execWholeRow tile w0 w1 w2 w3 s
  | .localRow tile w0 w1 w2 w3 => Sys2Proof.Machine.execLocalRow tile w0 w1 w2 w3 s
  | .finalRow tile w0 w1 w2 w3 => Sys2Proof.Machine.execFinalRow tile w0 w1 w2 w3 s
  | .ferryCopy tile stepIdx w0 => Sys2Proof.Machine.execFerryCopy tile stepIdx w0 s
  | .ferryFill tile stepIdx w0 => Sys2Proof.Machine.execFerryFill tile stepIdx w0 s
  | .suRun tile w0 => Sys2Proof.Machine.execSuRun tile w0 s
  | .exportFlit tile src => Sys2Proof.Machine.execExportFlit tile src s
  | .endMarker tile src => Sys2Proof.Machine.execEndMarker tile src s
  | .stagingCopy tile => Sys2Proof.Machine.execStagingCopy tile s
  | .addElems tile stepIdx w0 w1 w2 w3 => Sys2Proof.Machine.execAddElems tile stepIdx w0 w1 w2 w3 s
  | .subElems tile stepIdx w0 w1 w2 w3 => Sys2Proof.Machine.execSubElems tile stepIdx w0 w1 w2 w3 s
  | .mulElems tile stepIdx w0 w1 w2 w3 => Sys2Proof.Machine.execMulElems tile stepIdx w0 w1 w2 w3 s
  | .fma tile stepIdx w0 w1 w2 w3 => Sys2Proof.Machine.execFma tile stepIdx w0 w1 w2 w3 s
  | .maximum tile stepIdx w0 w1 w2 w3 => Sys2Proof.Machine.execMaximum tile stepIdx w0 w1 w2 w3 s
  | .minimum tile stepIdx w0 w1 w2 w3 => Sys2Proof.Machine.execMinimum tile stepIdx w0 w1 w2 w3 s
  | .cvt tile stepIdx w0 w1 w2 w3 => Sys2Proof.Machine.execCvt tile stepIdx w0 w1 w2 w3 s
  | .cadd tile stepIdx w0 w1 w2 w3 => Sys2Proof.Machine.execCadd tile stepIdx w0 w1 w2 w3 s
  | .divElems tile stepIdx w0 w1 w2 w3 => Sys2Proof.Machine.execDivElems tile stepIdx w0 w1 w2 w3 s
  | .sqrtElems tile stepIdx w0 w1 w2 w3 => Sys2Proof.Machine.execSqrtElems tile stepIdx w0 w1 w2 w3 s
  | .expElems tile stepIdx w0 w1 w2 w3 => Sys2Proof.Machine.execExpElems tile stepIdx w0 w1 w2 w3 s
  | .logElems tile stepIdx w0 w1 w2 w3 => Sys2Proof.Machine.execLogElems tile stepIdx w0 w1 w2 w3 s
  | .barrier tile => Sys2Proof.Machine.execBarrier tile s
  | .stepBarrier tile => Sys2Proof.Machine.execStepBarrier tile s
  | .barrierArrive tile src => Sys2Proof.Machine.execBarrierArrive tile src s
  | .barrierRelease tile => Sys2Proof.Machine.execBarrierRelease tile s
  | .loopOpen tile w0 => Sys2Proof.Machine.execLoopOpen tile w0 s
  | .loopClose tile => Sys2Proof.Machine.execLoopClose tile s
  | .waitFerry tile w0 => Sys2Proof.Machine.execWaitFerry tile w0 s
  | .riffleWord tile stream index => Sys2Proof.Machine.execRiffleWord tile stream index s
  | .writeFlit x y flit => Sys2Proof.Machine.execWriteFlit x y flit s
  | .readReq x y flit => Sys2Proof.Machine.execReadReq x y flit s
  | .rspList x y flit => Sys2Proof.Machine.execRspList x y flit s
  | .readRsp x y flit => Sys2Proof.Machine.execReadRsp x y flit s
  | .forkBuffer x y => Sys2Proof.Machine.execForkBuffer x y s
  | .reissue x y => Sys2Proof.Machine.execReissue x y s
  | .fenceAck x y flit => Sys2Proof.Machine.execFenceAck x y flit s
  | .stitchCrc link flitsSent => Sys2Proof.Machine.execStitchCrc link flitsSent s
  | .stitchLane link => Sys2Proof.Machine.execStitchLane link s
  | .sramScrub x y ecc => Sys2Proof.Machine.execSramScrub x y ecc s
  | .hbmRequest tile slot ecc => Sys2Proof.Machine.execHbmRequest tile slot ecc s
  | .refreshBank site temp => Sys2Proof.Machine.execRefreshBank site temp s
  | .patrolScrub site ecc => Sys2Proof.Machine.execPatrolScrub site ecc s
  | .pageWalk tile slot ecc => Sys2Proof.Machine.execPageWalk tile slot ecc s
  | .lockRetry tile slot => Sys2Proof.Machine.execLockRetry tile slot s
  | .firstTouch tile slot => Sys2Proof.Machine.execFirstTouch tile slot s
  | .pteChange part vpn pte => Sys2Proof.Machine.execPteChange part vpn pte s
  | .invalidateAck tile vpn => Sys2Proof.Machine.execInvalidateAck tile vpn s
  | .hello f => Sys2Proof.Machine.execHello f s
  | .keepalive f => Sys2Proof.Machine.execKeepalive f s
  | .byeFrame f => Sys2Proof.Machine.execByeFrame f s
  | .loadBegin f => Sys2Proof.Machine.execLoadBegin f s
  | .loadChunk f => Sys2Proof.Machine.execLoadChunk f s
  | .loadEnd f => Sys2Proof.Machine.execLoadEnd f s
  | .fwStage f => Sys2Proof.Machine.execFwStage f s
  | .fwActivate f => Sys2Proof.Machine.execFwActivate f s
  | .activateCancel f => Sys2Proof.Machine.execActivateCancel f s
  | .commitPoint => Sys2Proof.Machine.execCommitPoint s
  | .handover good => Sys2Proof.Machine.execHandover good s
  | .activationDeadline => Sys2Proof.Machine.execActivationDeadline s
  | .mbxOffer f => Sys2Proof.Machine.execMbxOffer f s
  | .mbxFinish f => Sys2Proof.Machine.execMbxFinish f s
  | .offerExpiry mailbox => Sys2Proof.Machine.execOfferExpiry mailbox s
  | .linkOffer f => Sys2Proof.Machine.execLinkOffer f s
  | .linkAccept f => Sys2Proof.Machine.execLinkAccept f s
  | .linkFinish f => Sys2Proof.Machine.execLinkFinish f s
  | .linkDrop f => Sys2Proof.Machine.execLinkDrop f s
  | .quoteBody f => Sys2Proof.Machine.execQuoteBody f s
  | .certs f => Sys2Proof.Machine.execCerts f s
  | .lifecycle f => Sys2Proof.Machine.execLifecycle f s
  | .releaseKeyExpiry part => Sys2Proof.Machine.execReleaseKeyExpiry part s
  | .keyRotate f => Sys2Proof.Machine.execKeyRotate f s
  | .sweepBatch part good => Sys2Proof.Machine.execSweepBatch part good s
  | .rotationDone part => Sys2Proof.Machine.execRotationDone part s
  | .weightBind f => Sys2Proof.Machine.execWeightBind f s
  | .partCreate f => Sys2Proof.Machine.execPartCreate f s
  | .partDestroy f => Sys2Proof.Machine.execPartDestroy f s
  | .partQuery f => Sys2Proof.Machine.execPartQuery f s
  | .jobSubmit f => Sys2Proof.Machine.execJobSubmit f s
  | .jobStart part => Sys2Proof.Machine.execJobStart part s
  | .jobDone part => Sys2Proof.Machine.execJobDone part s
  | .jobCancel f => Sys2Proof.Machine.execJobCancel f s
  | .preempt f => Sys2Proof.Machine.execPreempt f s
  | .atRest part => Sys2Proof.Machine.execAtRest part s
  | .resumePart f => Sys2Proof.Machine.execResumePart f s
  | .ckptSave f => Sys2Proof.Machine.execCkptSave f s
  | .ckptRestore f => Sys2Proof.Machine.execCkptRestore f s
  | .logRead f => Sys2Proof.Machine.execLogRead f s
  | .traceSet f => Sys2Proof.Machine.execTraceSet f s
  | .errRecords f => Sys2Proof.Machine.execErrRecords f s
  | .instanceRecord f => Sys2Proof.Machine.execInstanceRecord f s
  | .onceInject f => Sys2Proof.Machine.execOnceInject f s
  | .countInject f => Sys2Proof.Machine.execCountInject f s
  | .stopInject f => Sys2Proof.Machine.execStopInject f s
  | .injectedEvent inj index syndrome => Sys2Proof.Machine.execInjectedEvent inj index syndrome s
  | .entropyGet f => Sys2Proof.Machine.execEntropyGet f s
  | .entropyGetTimeout mailbox => Sys2Proof.Machine.execEntropyGetTimeout mailbox s
  | .selftest f failed => Sys2Proof.Machine.execSelftest f failed s
  | .intrusivePart test part failed => Sys2Proof.Machine.execIntrusivePart test part failed s
  | .ageScan f => Sys2Proof.Machine.execAgeScan f s
  | .replan f => Sys2Proof.Machine.execReplan f s
  | .powerBudget f => Sys2Proof.Machine.execPowerBudget f s
  | .throttleTarget f => Sys2Proof.Machine.execThrottleTarget f s
  | .idlePolicy f => Sys2Proof.Machine.execIdlePolicy f s
  | .phyRetrain f => Sys2Proof.Machine.execPhyRetrain f s
  | .portConfig f => Sys2Proof.Machine.execPortConfig f s
  | .lockstepPair f => Sys2Proof.Machine.execLockstepPair f s
  | .unpair f => Sys2Proof.Machine.execUnpair f s
  | .persistRead f => Sys2Proof.Machine.execPersistRead f s
  | .persistWrite f => Sys2Proof.Machine.execPersistWrite f s
  | .journalQuery f => Sys2Proof.Machine.execJournalQuery f s
  | .vorlaRetx mailbox seq => Sys2Proof.Machine.execVorlaRetx mailbox seq s
  | .ackDeadline mailbox => Sys2Proof.Machine.execAckDeadline mailbox s
  | .sessionExpiry mailbox => Sys2Proof.Machine.execSessionExpiry mailbox s
  | .keepaliveSend => Sys2Proof.Machine.execKeepaliveSend s
  | .dataFrame f => Sys2Proof.Machine.execDataFrame f s
  | .ackFrame f => Sys2Proof.Machine.execAckFrame f s
  | .haloFrame f => Sys2Proof.Machine.execHaloFrame f s
  | .chainFrame f => Sys2Proof.Machine.execChainFrame f s
  | .arriveFrame f => Sys2Proof.Machine.execArriveFrame f s
  | .releaseFrame f => Sys2Proof.Machine.execReleaseFrame f s
  | .leaveFrame f => Sys2Proof.Machine.execLeaveFrame f s
  | .openConn f => Sys2Proof.Machine.execOpenConn f s
  | .startFrame f => Sys2Proof.Machine.execStartFrame f s
  | .digestFrame f => Sys2Proof.Machine.execDigestFrame f s
  | .freezeFrame f => Sys2Proof.Machine.execFreezeFrame f s
  | .holdFrame f => Sys2Proof.Machine.execHoldFrame f s
  | .lstepResume f => Sys2Proof.Machine.execLstepResume f s
  | .lsTimeout part => Sys2Proof.Machine.execLsTimeout part s
  | .rto part peer ix seq => Sys2Proof.Machine.execRto part peer ix seq s
  | .tribAckTimer part peer ix => Sys2Proof.Machine.execTribAckTimer part peer ix s
  | .every20us part peer ix => Sys2Proof.Machine.execEvery20us part peer ix s
  | .openTimeout part => Sys2Proof.Machine.execOpenTimeout part s
  | .portDownTimeout port => Sys2Proof.Machine.execPortDownTimeout port s
  | .neighborSolicitation port target => Sys2Proof.Machine.execNeighborSolicitation port target s
  | .traceRd tile v => Sys2Proof.Machine.execTraceRd tile v s
  | .routerCount x y => Sys2Proof.Machine.execRouterCount x y s
  | .ferryStatus tile => Sys2Proof.Machine.execFerryStatus tile s
  | .diePwr die => Sys2Proof.Machine.execDiePwr die s
  | .registerWrite reg v => Sys2Proof.Machine.execRegisterWrite reg v s
  | .resetN => Sys2Proof.Machine.execResetN s
  | .coldStart romOk kat => Sys2Proof.Machine.execColdStart romOk kat s
  | .auxLoss => Sys2Proof.Machine.execAuxLoss s
  | .refLoss => Sys2Proof.Machine.execRefLoss s
  | .vinDip vin => Sys2Proof.Machine.execVinDip vin s
  | .dipRecovery => Sys2Proof.Machine.execDipRecovery s
  | .dipHoldEnd => Sys2Proof.Machine.execDipHoldEnd s
  | .vinBrownout => Sys2Proof.Machine.execVinBrownout s
  | .tjClamp die temp => Sys2Proof.Machine.execTjClamp die temp s
  | .tjClampEnd die temp => Sys2Proof.Machine.execTjClampEnd die temp s
  | .thermTrip die temp => Sys2Proof.Machine.execThermTrip die temp s
  | .railClamp die => Sys2Proof.Machine.execRailClamp die s
  | .railClampEnd die mv => Sys2Proof.Machine.execRailClampEnd die mv s
  | .bladeLimit => Sys2Proof.Machine.execBladeLimit s
  | .bladeLimitEnd => Sys2Proof.Machine.execBladeLimitEnd s
  | .droop die => Sys2Proof.Machine.execDroop die s
  | .pllLock die mesh => Sys2Proof.Machine.execPllLock die mesh s
  | .limiterFault die => Sys2Proof.Machine.execLimiterFault die s
  | .tileGate x y => Sys2Proof.Machine.execTileGate x y s
  | .tileWake x y => Sys2Proof.Machine.execTileWake x y s
  | .dieSleep die => Sys2Proof.Machine.execDieSleep die s
  | .dieWake die => Sys2Proof.Machine.execDieWake die s
  | .deepIdle => Sys2Proof.Machine.execDeepIdle s
  | .deepIdleExit => Sys2Proof.Machine.execDeepIdleExit s
  | .scrubWake => Sys2Proof.Machine.execScrubWake s
  | .ageWindow x y count mv tj => Sys2Proof.Machine.execAgeWindow x y count mv tj s
  | .planWrite whole => Sys2Proof.Machine.execPlanWrite whole s
  | .drtWatchdog cause => Sys2Proof.Machine.execDrtWatchdog cause s
  | .stewardFault die => Sys2Proof.Machine.execStewardFault die s
  | .stewardReload die good => Sys2Proof.Machine.execStewardReload die good s
  | .plateMirror => Sys2Proof.Machine.execPlateMirror s
  | .hwRct pair => Sys2Proof.Machine.execHwRct pair s
  | .hwApt pair => Sys2Proof.Machine.execHwApt pair s
  | .sentHealth die apt => Sys2Proof.Machine.execSentHealth die apt s
  | .startupTest passed kat => Sys2Proof.Machine.execStartupTest passed kat s
  | .katFailure kind => Sys2Proof.Machine.execKatFailure kind s
  | .expSeed => Sys2Proof.Machine.execExpSeed s
  | .periodicKat good => Sys2Proof.Machine.execPeriodicKat good s
  | .maskingReseed => Sys2Proof.Machine.execMaskingReseed s
  | .tribLink port up retrained => Sys2Proof.Machine.execTribLink port up retrained s
  | .hostLink port up retrained => Sys2Proof.Machine.execHostLink port up retrained s
  | .testAccessPort op => Sys2Proof.Machine.execTestAccessPort op s
  | .modeRunReached => Sys2Proof.Machine.execModeRunReached s
  | .clockRequest die f => Sys2Proof.Machine.execClockRequest die f s

end Sys2Proof.Machine
end

