-- ==== Sys2Proof/Safety.lean ====
section
/-! DEFINITION. The terms claims use: legal rectangles, a calm panel, a request that is served, memories in canonical form. -/

namespace Sys2Proof.Machine

/-- The rectangles of the partitions are legal on the panel's grid (R28, R29): each has the shape of R28 and a PARTITION number of
1 to 64, no two share a tile or a number, and there are at most 64. -/
structure State.GeomLegal (s : State) : Prop where
  shapes : ∀ r ∈ s.geom, r.shapeOk s.fuses.rows = true ∧ 1 ≤ r.part ∧ r.part ≤ 64
  apart : s.geom.Pairwise fun a b => a.overlaps b = false ∧ a.part ≠ b.part
  few : s.geom.length ≤ 64

/-- Nothing waits for the end of a command: no repair is due and no device reset is called for. Every command leaves a panel whose
detectors have not fired so. -/
structure State.Calm (s : State) : Prop where
  due : s.err.due = []
  reset : s.resetReq = none
  up : s.power.inReset = false

/-- The request that a frame of an opcode carries. -/
def VFrame.request (f : VFrame) (op : Nat) : Req :=
  { box := f.mailbox.toNat, opcode := op, tag := f.tag, flags := f.flags.toNat, seq := f.seq, header := f.header op,
    payload := f.payload }

/-- The panel once a request frame has passed Table 12-3: its numbers and acknowledgement taken, its TAG outstanding. -/
def State.taken (s : State) (op : Nat) (f : VFrame) : State :=
  ((s.vorlaFront op f).1.shaped s.fuses s.geom).updBox f.mailbox.toNat fun b =>
    { b with outstanding := if b.outstanding.contains f.tag then b.outstanding else b.outstanding ++ [f.tag] }

/-- A request frame passes R317 and Table 12-3 and, in deep idle, is one that deep idle serves (R452). -/
structure State.Serves (s : State) (op : Nat) (f : VFrame) : Prop where
  front : (s.vorlaFront op f).2 = true
  check : ((s.vorlaFront op f).1.shaped s.fuses s.geom).vorlaCheck op f = none
  awake : ((s.taken op f).power.deepIdle && !(deepServes (s.taken op f) op f.payload)) = false

/-- The associated data of a Tributary frame of a type (Table 11-3). -/
def TFrame.aad (f : TFrame) (type : Nat) : List Byte :=
  tHeader type f.dstPart.toNat f.srcPart.toNat f.srcPanel.toNat f.dstPanel.toNat f.context f.seq f.ack f.flags.toNat
    f.len.toNat f.xmit.toNat f.keyId.toNat f.connIx.toNat

/-- A Tributary frame is heard (R294): the port is up, the connection exists and is the frame's, no reserved field is set, and its tag opens to
the payload b. -/
structure State.Hears (s : State) (type : Nat) (f : TFrame) (k : Conn) (b : List Byte) : Prop where
  out : s.power.inReset = false
  awake : s.power.deepIdle = false
  up : (s.tport f.port).up = true
  on : (s.tport f.port).disabled = false
  udp : f.udpOk = true
  known : s.trib.lost.contains f.srcPanel.toNat = false
  conn : s.conn f.dstPart.toNat f.srcPanel.toNat f.connIx.toNat = some k
  port : k.port = f.port
  peer : k.peerPart = f.srcPart.toNat
  panel : f.dstPanel.toNat = s.panel
  version : f.version = 1
  fields : f.reservedSet type = false
  tag : gcmOpen (s.keyOf k (k.rotOf f.keyId.toNat))
    (tNonce f.srcPanel.toNat f.srcPart.toNat f.dstPart.toNat f.seq f.xmit.toNat f.connIx.toNat) (f.aad type) f.body = some b

/-- A frame of a connection counted, its acknowledgement taken, its SEQ marked and, where one is due, an ACK sent (R294, R298, R309, R413). -/
def State.marked (s : State) (k : Conn) (f : TFrame) : State :=
  let s := s.updConn k.part k.peer k.ix fun c => { c with rxCount := c.rxCount + 1, ceCount := c.ceCount + bnat f.ce }
  let s := if f.flags.getLsbD 15 then s.takeTribAck k f.ack else s
  let s := s.updConn k.part k.peer k.ix fun c => c.markSeq f.seq (k.rotOf f.keyId.toNat)
  if ((s.conn k.part k.peer k.ix).any fun c => c.ackCalled f.seq s.clock.ref) = true then s.ackNow k.part k.peer k.ix else s

/-- Every byte memory of the panel is in its canonical form. -/
structure State.MemWf (s : State) : Prop where
  tiles : ∀ e ∈ s.tiles, e.2.sram.wf = true
  hbm : s.hbm.mem.wf = true
  plate : s.firm.plate.wf = true

/-- The tile once its front instruction has left the stream: what the instruction works on. -/
def State.front (s : State) (k : Nat) : TileState := (s.took (s.ownerOf k) k).tile k

/-- A dispatched instruction has changed its tile alone, beside the gating of the tile and of its die, which new work ends (R449,
R450). -/
def State.OnlyTile (s t : State) (k : Nat) : Prop :=
  t = { s with tiles := s.tiles.set k (t.tile k), power := (s.wakeTile k).power }

/-- A command has changed one tile alone. -/
def State.OneTile (s t : State) (k : Nat) : Prop := t = { s with tiles := s.tiles.set k (t.tile k) }

end Sys2Proof.Machine
end

