-- ==== Sys2Proof/Certificates/Slice0/Obligations.lean ====
section
/-! DEFINITION. The statements for the provers. A statement that a command completes names the next state, under hypotheses on the
state and the operands alone; where it says OnlyTile or OneTile, or writes the next state out, it is the command's frame too. -/

open Sys2Proof Sys2Proof.Machine

/-- The array of tile k, its SRAM and the flags raised, after an operation on what the front instruction found. -/
def Claim.fx (s : State) (k : Nat) (f : ArrayFx → ArrayFx) : ArrayFx := f { arr := (s.front k).array, sram := (s.front k).sram }

/-- R354, R358, R360, R71, R356: LOOP, ENDLOOP, END, ACC_CTRL and WAIT_FERRY, where the tile may dispatch, change their tile alone:
LOOP opens a body with its run count, ENDLOOP goes back while runs are left, END marks the stream done, ACC_CTRL sets the control register
but for SU_MODE (R135), WAIT_FERRY holds the stream unless its slot is idle, done, or has moved enough elements. END of a tile's handler
ends that handler, and starts the streams of the whole partition once every tile has ended its own (the model's choice, log 122). -/
def Obligations.StreamControlCompletes : Prop :=
  ∀ (s : State) (k : Nat), s.Calm → s.canIssue k = true →
    (∀ w0 : Word, bits w0.toNat 63 32 = 0 → bits w0.toNat 31 0 ≠ 0 → (s.tile k).loops.length < 4 →
      ∃ t, exec (.loopOpen k w0) s = .next t ∧ s.OnlyTile t k ∧ (t.tile k).pos = (s.tile k).pos + 1 ∧
        (t.tile k).loops = ((s.tile k).pos + 1, bits w0.toNat 31 0) :: (s.tile k).loops) ∧
    (∀ (start n : Nat) (rest : List (Nat × Nat)), (s.tile k).loops = (start, n) :: rest →
      ∃ t, exec (.loopClose k) s = .next t ∧ s.OnlyTile t k ∧
        (1 < n → (t.tile k).pos = start ∧ (t.tile k).loops = (start, n - 1) :: rest) ∧
        (n ≤ 1 → (t.tile k).pos = (s.tile k).pos + 1 ∧ (t.tile k).loops = rest)) ∧
    ((s.tile k).loops = [] → s.inHandler (s.ownerOf k) = false →
      ∃ t, exec (.endStream k) s = .next t ∧ s.OnlyTile t k ∧ (t.tile k).ended = true) ∧
    ((s.tile k).loops = [] → s.inHandler (s.ownerOf k) = true →
      exec (.endStream k) s = .next (finish s (((s.took (s.ownerOf k) k).handlerEnd (s.ownerOf k) k).completed
        (s.ownerOf k) k (s.tile k).iseq.toNat unitNone 0))) ∧
    (∀ v : BitVec 32, accCtrlOk (ins 0x04 false [v.setWidth 64]) = true →
      ∃ t, exec (.accCtrl k v) s = .next t ∧ s.OnlyTile t k ∧ (t.tile k).array = (Claim.fx s k (ArrayFx.setCtrl v)).arr ∧
        (t.tile k).array.ctrl = (v &&& 0xFFFFFFEF) ||| ((s.tile k).array.ctrl &&& 0x10)) ∧
    (∀ w0 : Word, singleOk (ins 0x0F false [w0]) = true →
      ∃ t, exec (.waitFerry k w0) s = .next t ∧ s.OnlyTile t k ∧
        (t.tile k).waitFerry =
          if ((s.tile k).slot (bits w0.toNat 5 0)).phase = .idle ∨ ((s.tile k).slot (bits w0.toNat 5 0)).phase = .done ∨
              bits w0.toNat 63 16 ≤ ((s.tile k).slot (bits w0.toNat 5 0)).done
          then none else some (bits w0.toNat 5 0, bits w0.toNat 63 16))

/-- A dispatched array instruction has left this in its tile: the array, FP_STATUS with the flags raised joined, the SRAM where no trace
ring is written. -/
def Claim.arrayLeft (s t : State) (k : Nat) (r : ArrayFx) : Prop :=
  (t.tile k).array = r.arr ∧ (t.tile k).fp = (s.tile k).fp ||| r.flags.toBits ∧
    (s.traceLevel (s.ownerOf k) = 0 → (t.tile k).sram = r.sram)

/-- R60, R81, R73-R75: MMA makes its issues, ACC_LD takes a ticket, DRAIN takes a shadow buffer, each where the tile may dispatch, the
array is free and the load rules accept the words; none changes anything but its tile, as long as no issue has grown too long for
CANONICAL (R95). -/
def Obligations.ArrayDispatchCompletes : Prop :=
  ∀ (s : State) (k : Nat), s.Calm → s.canIssue k = true → (s.tile k).arrayFree = true →
    (∀ w0 w1 : Word, mmaOk (ins 0x01 false [w0, w1]) = true →
      (Claim.fx s k (ArrayFx.mma (s.canonical (s.ownerOf k)) w0 w1)).arr.tooLong = false →
      ∃ t, exec (.mma k w0 w1) s = .next t ∧ s.OnlyTile t k ∧
        Claim.arrayLeft s t k (Claim.fx s k (ArrayFx.mma (s.canonical (s.ownerOf k)) w0 w1))) ∧
    (∀ w0 : Word, accLdOk [accMode (s.tile k).array.ctrl] (ins 0x02 false [w0]) = true →
      (Claim.fx s k (ArrayFx.accLd (s.canonical (s.ownerOf k)) w0)).arr.tooLong = false →
      ∃ t, exec (.accLd k w0) s = .next t ∧ s.OnlyTile t k ∧
        Claim.arrayLeft s t k (Claim.fx s k (ArrayFx.accLd (s.canonical (s.ownerOf k)) w0))) ∧
    (∀ (si : Bool) (w0 w1 w2 : Word), drainOk [accMode (s.tile k).array.ctrl] (ins 0x03 si [w0, w1, w2]) = true →
      (s.tile k).array.drains.length < 2 →
      (Claim.fx s k (ArrayFx.drain w0 w1 (s.indexWord (s.ownerOf k) si w2) (s.tile k).iseq)).arr.tooLong = false →
      ∃ t, exec (.drain k si w0 w1 w2) s = .next t ∧ s.OnlyTile t k ∧ (t.tile k).array =
        (Claim.fx s k (ArrayFx.drain w0 w1 (s.indexWord (s.ownerOf k) si w2) (s.tile k).iseq)).arr)

/-- R62, R68, R87: the oldest issue in flight retires, and the spill buffer is combined, on their tile alone. A failed check of an issue stops
array dispatch, drops what is still to be drained, and raises its detector of subsystem 1. -/
def Obligations.ArrayStagesComplete : Prop :=
  ∀ (s : State) (k : Nat), s.Calm →
    (∀ (i : Issue) (rest : List Issue), (s.tile k).array.issues = i :: rest →
      ∀ r : ArrayFx, r = ArrayFx.retireIssue (s.canonical (s.ownerOf k)) { arr := { (s.tile k).array with issues := rest }, sram := (s.tile k).sram } i →
      r.arr.tooLong = false →
      ∃ t, exec (.retire { tile := k }) s = .next t ∧ s.OneTile t k ∧ (t.tile k).array = r.arr ∧ (t.tile k).sram = r.sram ∧
        (t.tile k).fp = (s.tile k).fp ||| r.flags.toBits) ∧
    (∀ c ∈ [(ArrayCheck.accParity, 0x0101), (.termMismatch, 0x0102), (.sumResidue, 0x0103)], (s.tile k).array.issues ≠ [] →
      exec (.retire { tile := k, check := c.1 }) s = .next (finish s ((s.updTile k fun x => { x with array := { x.array with stopped := true, drains := [] } }).raise
        { det := c.2, loc := s.locOf k, part := s.ownerOf k }))) ∧
    (∀ r : ArrayFx, r = ArrayFx.spillCombine { arr := (s.tile k).array, sram := (s.tile k).sram } → r.arr.tooLong = false →
      ∃ t, exec (.spillCombine k) s = .next t ∧ s.OneTile t k ∧ (t.tile k).array = r.arr ∧ (t.tile k).sram = r.sram ∧
        (t.tile k).fp = (s.tile k).fp ||| r.flags.toBits)

/-- R77-R80: the oldest drain whose pairs stand in its shadow buffer writes its result, adds its flags and frees the buffer and its words in the
drain-queue registers. -/
def Obligations.DrainDoneCompletes : Prop :=
  ∀ (s : State) (k : Nat) (d : Drain) (rest : List Drain) (ps : List Pair), s.Calm →
    (s.tile k).array.drains = d :: rest → d.shadow = some ps →
    ((DrainWords.ofWords d.w0 d.w1 d.w2).cvt.mode = .rs → (s.tile k).riffleStop = false) →
    ∀ r : List (Nat × List Byte) × Flags,
      r = drainWrites (DrainWords.ofWords d.w0 d.w1 d.w2) (accMode d.ctrl)
        (fun i => riffleBits (s.tile k).seed (DrainWords.ofWords d.w0 d.w1 d.w2).stream i 2) (s.tile k).sram ps →
      ∃ t, exec (.drainDone k) s = .next t ∧ s.OneTile t k ∧ (t.tile k).array =
          { (s.tile k).array with drains := rest, drainRegs := drainRegsDrop (s.tile k).array.drainRegs (!rest.isEmpty) } ∧
        (t.tile k).fp = (s.tile k).fp ||| r.2.toBits ∧
        (s.traceLevel (s.ownerOf k) = 0 → (t.tile k).sram = (s.tile k).sram.writeAll r.1)

/-- A vector instruction has left this in its tile: its words in the vector-queue registers, its flags, and its writes. -/
def Claim.vectorLeft (s t : State) (k : Nat) (ws : List Word) (o : VectorOut) : Prop :=
  (t.tile k).vq = ws ∧ (t.tile k).fp = (s.tile k).fp ||| o.flags.toBits ∧
    (s.traceLevel (s.ownerOf k) = 0 → (t.tile k).sram = (s.tile k).sram.writeAll o.writes)

/-- One VRAND: where the tile may dispatch and Riffle delivers, the words are accepted and name the distribution, the result is that of
the distribution over the Riffle stream, on its tile alone. -/
def Claim.vrand (c : Nat → Bool → Word → Word → Word → Word → Instr) (dist : Nat)
    (run : Word → Word → Word → Word → Nat → VectorOut) : Prop :=
  ∀ (s : State) (k : Nat) (si : Bool) (w0 w1 w2 w3 : Word), s.Calm → s.canIssue k = true →
    vrandOk (ins 0x06 si [w0, w1, w2, w3]) = true → bits w0.toNat 63 60 = dist → (s.tile k).riffleStop = false →
    ∃ t, exec (c k si w0 w1 w2 w3) s = .next t ∧ s.OnlyTile t k ∧
      Claim.vectorLeft s t k [w0, w1, s.indexWord (s.ownerOf k) si w2, w3]
        (run w0 w1 (s.indexWord (s.ownerOf k) si w2) w3 (s.tile k).seed)

/-- R118-R124: the ten distributions of VRAND. -/
def Obligations.VrandCompletes : Prop :=
  Claim.vrand .rawBits 0 rawRun ∧ Claim.vrand .unif01 1 (distRun 5 unif01Of) ∧ Claim.vrand .unifOpen 2 (distRun 5 unifOpenOf) ∧
    Claim.vrand .unif0164 3 (distRun 6 unif64Of) ∧ Claim.vrand .uintBelow 4 (distRun 5 uintBelowOf) ∧
    Claim.vrand .bernoulli 5 bernoulliRun ∧ Claim.vrand .normalDraw 6 (distRun 6 normalOf) ∧
    Claim.vrand .truncNormal 7 (distRun 6 truncNormalOf) ∧ Claim.vrand .exponentialDraw 8 (distRun 5 exponentialOf) ∧
    Claim.vrand .gumbelDraw 9 (distRun 5 gumbelOf)

/-- One VOP, likewise: its result on the SRAM its front instruction found; an RS result needs Riffle. -/
def Claim.vop (c : Nat → Bool → Word → Word → Word → Word → Instr) (op : Nat)
    (run : Word → Word → Word → Word → Nat → Mem → VectorOut) : Prop :=
  ∀ (s : State) (k : Nat) (si : Bool) (w0 w1 w2 w3 : Word), s.Calm → s.canIssue k = true →
    vopOk (ins 0x0A si [w0, w1, w2, w3]) = true → bits w0.toNat 63 60 = op →
    ((VopWords.ofWords w0 w1 w2 w3).cvt.mode = .rs → (s.tile k).riffleStop = false) →
    ∃ t, exec (c k si w0 w1 w2 w3) s = .next t ∧ s.OnlyTile t k ∧
      Claim.vectorLeft s t k [w0, w1, w2, s.indexWord (s.ownerOf k) si w3]
        (run w0 w1 w2 (s.indexWord (s.ownerOf k) si w3) (s.tile k).seed (s.front k).sram)

/-- R357: the twelve operations of VOP. -/
def Obligations.VopCompletes : Prop :=
  Claim.vop .addElems 0 (vopRun .add) ∧ Claim.vop .subElems 1 (vopRun .sub) ∧ Claim.vop .mulElems 2 (vopRun .mul) ∧
    Claim.vop .fma 3 (vopRun .fma) ∧ Claim.vop .maximum 4 (vopRun .max) ∧ Claim.vop .minimum 5 (vopRun .min) ∧
    Claim.vop .cvt 6 (vopRun .cvt) ∧ Claim.vop .cadd 7 (fun a b c d _ m => caddRun a b c d m) ∧
    Claim.vop .divElems 8 (vopRun .div) ∧ Claim.vop .sqrtElems 9 (vopRun .sqrt) ∧ Claim.vop .expElems 10 (vopRun .exp) ∧
    Claim.vop .logElems 11 (vopRun .log)

/-- R126, R127: a lane delivers the word of its stream and index into the buffer, which has room. -/
def Obligations.RiffleWordCompletes : Prop :=
  ∀ (s : State) (k : Nat) (stream : BitVec 32) (index : Word), s.Calm → (s.tile k).riffleStop = false →
    (s.tile k).riffleBuf.length < 4096 →
    exec (.riffleWord k stream index) s = .next (s.setTile k
      { s.tile k with
        riffleBuf := (s.tile k).riffleBuf ++ [⟨stream, index, BitVec.ofNat 64 (riffleWord (s.tile k).seed stream.toNat index.toNat)⟩] })

/-- One DRAW: dispatched, its words stand in the vector-queue registers and its rows begin at 0; one that a PREEMPT has stopped goes on from
ROWS_DONE. `rows` rows are drawn before the next thing happens to the panel, and after its last row the instruction completes. -/
def Claim.draw (c : DrawAt → Word → Word → Word → Word → Instr) (phase : Nat) : Prop :=
  ∀ (s : State) (k rows : Nat) (w0 w1 w2 w3 : Word) (d : DrawWords), d = DrawWords.ofWords w0 w1 w2 w3 → d.phase = phase →
    (∀ u : State, s.canIssue k = true → drawOk (ins 0x07 false [w0, w1, w2, w3]) = true → (s.tile k).riffleStop = false →
      (s.tile k).drawReady d = true →
      u = (s.took (s.ownerOf k) k).updTile k (fun x =>
        { x with vq := [w0, w1, w2, w3], drawBusy := true, drawRows := 0, drawIseq := (s.tile k).iseq, drawWrites := [] }) →
      exec (c { tile := k, rows := rows } w0 w1 w2 w3) s = .next (finish s ((State.drawRows (s.ownerOf k) k d rows u).drawEnd (s.ownerOf k) k d))) ∧
    ((s.tile k).drawBusy = true → (s.tile k).vq = [w0, w1, w2, w3] → s.drawMay k = true →
      exec (c { tile := k, rows := rows } w0 w1 w2 w3) s = .next (finish s ((State.drawRows (s.ownerOf k) k d rows s).drawEnd (s.ownerOf k) k d)))

/-- R173, R175-R178, R191: the three phases of DRAW. -/
def Claim.drawCommands : Prop :=
  Claim.draw .wholeRow 0 ∧ Claim.draw .localRow 1 ∧ Claim.draw .finalRow 2

/-- R177, R178, R191, R192: a row that raises nothing uses its Riffle items, writes its records into the tile, joins its flags and counts itself
in DRAW_PROGRESS. One whose list is out of order, 0x0221, writes nothing and stops the DRAW. After the last row the instruction completes. -/
def Obligations.DrawCompletes : Prop :=
  Claim.drawCommands ∧ (∀ (s : State) (p k : Nat) (d : DrawWords) (o : RowOut), (s.tile k).drawBusy = true →
      (s.tile k).drawRows.toNat < d.nrows → o = d.row (s.tile k).seed (s.tile k).sram (s.tile k).drawRows.toNat →
      (∀ i : Nat × Nat × Nat × Nat, o.raise = none → i = d.items (s.tile k).sram (s.tile k).drawRows.toNat →
        State.drawRows p k d 1 s = s.setTile k
          { (((s.tile k).useItems i.1 i.2.1 i.2.2.1 i.2.2.2).store o.writes).flag o.flags with
            drawRows := (s.tile k).drawRows + 1, drawWrites := (s.tile k).drawWrites ++ o.writes }) ∧
      (o.raise = some 0x0221 → State.drawRows p k d 1 s = (s.setTile k
          { (s.tile k).flag o.flags with
            acc := (s.tile k).acc + s.drawSum p k d.outLine d.seqLine (s.tile k).drawIseq (s.tile k).drawWrites,
            drawBusy := false, drawWrites := [] }).raise { det := 0x0221, loc := s.locOf k, part := p })) ∧
    (∀ (s : State) (p k : Nat) (d : DrawWords), (s.tile k).drawBusy = true → d.nrows ≤ (s.tile k).drawRows.toNat →
      s.drawEnd p k d = (s.setTile k { s.tile k with drawBusy := false, drawWrites := [] }).completed p k (s.tile k).drawIseq.toNat unitDraw
        (s.drawSum p k d.outLine d.seqLine (s.tile k).drawIseq (s.tile k).drawWrites))

/-- R243, R244, R248, R249, R356: FERRY starts a well-formed descriptor of the slot its word names, which must be free, with OP COPY and with
OP FILL; a conversion under RS needs Riffle (R130). Reading FERRY_STATUS gives the register and restarts INFLIGHT_MAX. -/
def Claim.ferryAccepted : Prop :=
  ∀ (s : State) (k : Nat),
    (∀ (si : Bool) (w0 : Word) (ws : List Word), s.canIssue k = true → singleOk (ins 0x08 si [w0]) = true →
      ((s.tile k).slot (bits w0.toNat 5 0)).free = true → ws = s.loadWords (s.ownerOf k) k (bits w0.toNat 63 48) si →
      (s.tile k).ferryStalls (Desc.ofWords ws) = false →
      (Desc.ofWords ws).ok ws (fun u => decide (s.ownerOf u = s.ownerOf k)) = true → s.groupAbsent (s.ownerOf k) (Desc.ofWords ws) = false →
      ((Desc.ofWords ws).fill = false → exec (.ferryCopy k si w0) s =
        .next (finish s ((s.took (s.ownerOf k) k).ferryStart (s.ownerOf k) k (bits w0.toNat 5 0) ws (s.tile k).iseq))) ∧
      ((Desc.ofWords ws).fill = true → exec (.ferryFill k si w0) s =
        .next (finish s ((s.took (s.ownerOf k) k).ferryStart (s.ownerOf k) k (bits w0.toNat 5 0) ws (s.tile k).iseq)))) ∧
    (s.Calm → exec (.ferryStatus k) s = .next
      { s.setTile k { s.tile k with ferry := { (s.tile k).ferry with inflightMax := 0 } } with readOut := (s.tile k).ferry.status })

/-- R244: a FERRY whose descriptor is malformed is refused: detector 0x0601 and ST_BAD_FORMAT, with the record in its slot. -/
def Obligations.FerryCompletes : Prop :=
  Claim.ferryAccepted ∧ (∀ (s : State) (k : Nat) (si : Bool) (w0 : Word) (ws : List Word), s.canIssue k = true → singleOk (ins 0x08 si [w0]) = true →
      ((s.tile k).slot (bits w0.toNat 5 0)).free = true → ws = s.loadWords (s.ownerOf k) k (bits w0.toNat 63 48) si →
      (s.tile k).ferryStalls (Desc.ofWords ws) = false →
      (Desc.ofWords ws).ok ws (fun u => decide (s.ownerOf u = s.ownerOf k)) = false →
      ((Desc.ofWords ws).fill = false → exec (.ferryCopy k si w0) s =
        .next (finish s ((s.took (s.ownerOf k) k).ferryRefuse (s.ownerOf k) k (bits w0.toNat 5 0) ws (s.tile k).iseq))) ∧
      ((Desc.ofWords ws).fill = true → exec (.ferryFill k si w0) s =
        .next (finish s ((s.took (s.ownerOf k) k).ferryRefuse (s.ownerOf k) k (bits w0.toNat 5 0) ws (s.tile k).iseq))))


/-- R98, R103, R111: CHAIN puts its entry at the back of the queue, which holds fewer than two, its words into the chain-queue registers, and
takes up a ready token that came first; READY_TOKEN, sent by the neighbour towards the tail, marks the entry of its instance, or is kept until
that is dispatched. Both change their tile alone. A CHAIN whose leg needs a panel that no connection reaches any more ends the job with
ST_PEER_LOST. -/
def Obligations.ChainQueueCompletes : Prop :=
  ∀ (s : State) (k : Nat), s.Calm →
    (∀ w0 w1 w2 : Word, s.canIssue k = true → s.chainFits k w0 w1 w2 = true → (s.tile k).chains.length < 2 →
      (s.chainCut (s.ownerOf k) (ChainWords.ofWords w0 w1 w2) = false →
        ∃ t, exec (.chainOp k w0 w1 w2) s = .next t ∧ s.OnlyTile t k ∧
          (t.tile k).chains = (s.tile k).chains ++
            [{ w0 := w0, w1 := w1, w2 := w2, step := (s.meridian (s.ownerOf k)).toNat, iseq := (s.tile k).iseq,
               ready := (s.front k).tokens.contains ((ChainWords.ofWords w0 w1 w2).id, (s.meridian (s.ownerOf k)).toNat), energy := false,
               pos := (s.tile k).pos + 1 }] ∧
          (t.tile k).chainRegs = drainRegsPut (s.tile k).chainRegs (s.tile k).chains.length [w0, w1, w2]) ∧
      (s.chainCut (s.ownerOf k) (ChainWords.ofWords w0 w1 w2) = true → exec (.chainOp k w0 w1 w2) s = .next (finish s
        (((s.took (s.ownerOf k) k).chainEnter (s.ownerOf k) k (s.tile k).iseq w0 w1 w2 false).endJob (s.ownerOf k) .peerLost)))) ∧
    (∀ (id : BitVec 32) (at_ : Word) (u : Nat) (e : ChainEntry), u ∈ s.tilesOf (s.ownerOf k) → e ∈ (s.tile u).chains →
      e.names id.toNat at_.toNat = true → e.token = true → onMesh e.words.inDir = true → dirTile u e.words.inDir = k →
      s.legsOpen (s.ownerOf k) = true →
      ∃ t, exec (.readyToken k id at_) s = .next t ∧ s.OneTile t k ∧
        (∀ x ∈ (t.tile k).chains, x.names id.toNat at_.toNat = true → x.ready = true) ∧
        ((s.tile k).chains.any (fun x => x.names id.toNat at_.toNat) = false →
          (id.toNat, at_.toNat) ∈ (t.tile k).tokens ∧ (t.tile k).chains = (s.tile k).chains))

/-- R100, R101, R103, R104: the head of a leg whose token is there folds its own partials, or takes up the whole result of another panel
from the inbox; a member takes the next flit of its side, and with the last one folds and forwards. -/
def Claim.chainLegs : Prop :=
  ∀ (s : State) (k : Nat) (e : ChainEntry) (rest : List ChainEntry), (s.tile k).chains = e :: rest → e.energy = false →
    (e.token = true → e.words.legHead = true → s.legsOpen (s.ownerOf k) = true →
      (e.words.inDir ≠ 5 → exec (.legStart k) s = .next (finish s (s.chainRun (s.ownerOf k) k e none).1)) ∧
      (∀ (x : Part) (i : ChainIn), e.words.inDir = 5 → s.part (s.ownerOf k) = some x →
        x.chainIn.find? (fun i => decide (i.id = e.words.id) && decide (i.step = e.step)) = some i → i.abort = false →
        i.total = some (8 * e.words.entries) → partsCover 0 (8 * e.words.entries) i.parts = true → i.lead = e.words.segFirst →
        i.op = e.words.op → i.mixed = false → exec (.legStart k) s =
          .next (finish s (s.chainRun (s.ownerOf k) k e (some (bytePairs e.words.entries (i.parts.flatMap (·.2))))).1))) ∧
    (∀ (f : Nat × ChainFlit) (got : List Byte) (y : State), onMesh e.words.inDir = true →
      (s.tile k).vc1.find? (fun f => decide (f.1 = e.words.inDir)) = some f →
      (e.started = true ∨ e.words.accepts (Lead.ofBytes f.2.data) = true) → got = e.got ++ f.2.data →
      y = s.setTile k { s.tile k with vc1 := (s.tile k).vc1.erase f, chains := { e with started := true, got := got } :: rest } →
      (got.length < 8 + e.words.packed → exec (.chainFlit k) s = .next (finish s y)) ∧
      (8 + e.words.packed ≤ got.length → exec (.chainFlit k) s =
        .next (finish s (y.chainRun (s.ownerOf k) k e (some (bytePairs e.words.entries (got.drop 8)))).1)))

/-- R101: a first flit whose lead word the member does not accept is a chain order error, detector 0x0411, and nothing is folded. -/
def Obligations.ChainLegsComplete : Prop :=
  Claim.chainLegs ∧ (∀ (s : State) (k : Nat) (e : ChainEntry) (rest : List ChainEntry) (f : Nat × ChainFlit),
      (s.tile k).chains = e :: rest → e.started = false → onMesh e.words.inDir = true →
      (s.tile k).vc1.find? (fun f => decide (f.1 = e.words.inDir)) = some f → e.words.accepts (Lead.ofBytes f.2.data) = false →
      exec (.chainFlit k) s = .next (finish s (s.raise { det := 0x0411, loc := s.locOf k, part := s.ownerOf k })))

/-- R144, R150, R154, R161: SU_RUN on a tile whose array and sequencer are idle copies the control block, sets SU_MODE and reads what its own
ferry has written into the ring of a streamed run. Where the records of CHECK are there and the block passes, the groups of PRIME go out;
where the block is well formed and records are missing, the run waits for them. -/
def Obligations.SuRunCompletes : Prop :=
  ∀ (s : State) (k : Nat) (w0 : Word), s.canIssue k = true → singleOk (ins 0x09 false [w0]) = true → (s.tile k).array.idle = true →
    ((s.tile k).seq.phase = .idle ∨ (s.tile k).seq.phase = .halt) → (s.tile k).array.stopped = false →
    ∀ (p line : Nat) (m : Mem) (words : List Word) (c : SeqCopy) (u : State), p = s.ownerOf k → line = bits w0.toNat 63 48 →
      m = (s.front k).sram → words = (List.range 8).map (fun i => BitVec.ofNat 64 (m.nat (line * 64 + 8 * i) 8)) →
      c = SeqCopy.read m line words →
      u = (s.took p k).updTile k (fun x => (x.suMode (SeqState.start words c line (s.tile k).iseq)).ringPull) →
      (c.ready (u.tile k).seq.got 15 = true →
        c.check (u.tile k).sram (u.tile k).seq.got line words s.panel (fun v => decide (s.ownerOf v = p)) = .ok →
        exec (.suRun k w0) s = .next (finish s
          (((u.noteRelaxed p c.ctl.relaxed).updTile k fun x =>
              (x.enter .prime).updSeq fun q => { q with got := c.nextPass q.got }).sendStep p k c (fun _ => true) 0 0xFFFFFFFF
            (List.range c.ctl.ncol)))) ∧
      (c.ready (u.tile k).seq.got 15 = false → c.formOk line words s.panel (fun v => decide (s.ownerOf v = p)) = true →
        exec (.suRun k w0) s = .next (finish s u))

/-- R161-R163: the next export of a source goes to the staging half of its step; the END of a peer is noted for its step. Each changes its
tile alone. While the sequencer has not started, both wait. -/
def Claim.exchange : Prop :=
  ∀ (s : State) (k src : Nat) (c : SeqCopy) (rest : List (Nat × SuFlit)), s.Calm → (s.tile k).seq.copy = some c →
    (∀ step slot v : Nat, takeFrom src (s.tile k).su = some (.value step slot v, rest) → (s.tile k).seq.active = true →
      (if c.ctl.dense then 520 else 8) * (((s.tile k).seq.stage (halfOf step)).length + 1) ≤ c.ctl.stageLines * 64 →
      ∃ t, exec (.exportFlit k src) s = .next t ∧ s.OneTile t k ∧ (t.tile k).su = rest ∧
        (t.tile k).seq.stage (halfOf step) = (s.tile k).seq.stage (halfOf step) ++ [(slot, v)]) ∧
    (∀ step : Nat, takeFrom src (s.tile k).su = some (.endMark step, rest) → (s.tile k).seq.waits = false → (s.tile k).seq.step ≤ step →
      (∃ r ∈ c.peers, r.panel = s.panel ∧ r.tile = src) →
      ∃ t, exec (.endMarker k src) s = .next t ∧ s.OneTile t k ∧ (t.tile k).su = rest ∧
        (t.tile k).seq.ends (halfOf step) = src :: (s.tile k).seq.ends (halfOf step)) ∧
    ((s.tile k).seq.waits = true → exec (.exportFlit k src) s = .next s ∧ exec (.endMarker k src) s = .next s)

/-- R161: an END from a tile that is no peer raises 0x0906, and the sequencer halts in FAULT. -/
def Obligations.ExchangeCompletes : Prop :=
  Claim.exchange ∧ (∀ (s : State) (k src step : Nat) (c : SeqCopy) (rest : List (Nat × SuFlit)), (s.tile k).seq.copy = some c →
      takeFrom src (s.tile k).su = some (.endMark step, rest) → (s.tile k).seq.waits = false → (∀ r ∈ c.peers, ¬ (r.panel = s.panel ∧ r.tile = src)) →
      exec (.endMarker k src) s = .next (finish s ((s.setTile k { s.tile k with su := rest }).seqFault (s.ownerOf k) k 0x0906)))


/-- R162, R163, R165, R168: a sequencer that awaits the ENDs of its step takes the whole groups of other panels from the inbox; with END of
every peer there and its own flits delivered it copies the imports of the step and goes on. -/
def Claim.stagingCopy : Prop :=
  ∀ (s : State) (k : Nat) (c : SeqCopy) (u : State), (s.tile k).seq.copy = some c → (s.tile k).seq.active = true →
    s.seqMay (s.ownerOf k) = true → (s.tile k).riffleStop = false → (s.tile k).seq.phase ≠ .check →
    ((s.tile k).seq.phase = .prime → (s.tile k).seq.again = false) → (s.tile k).seq.waitEnd = true → u = s.moveHalos (s.ownerOf k) k c → (u.tile k).seq.active = true →
    u.allEnds (s.ownerOf k) k c = true → u.sentAll (s.ownerOf k) k = true → exec (.stagingCopy k) s = .next (finish s (u.copyGo (s.ownerOf k) k c))

/-- R162: the copy of a step that is not the last of its sweep moves the halo, clears the staging half and its ENDs, and the next colour
begins. -/
def Obligations.StagingCopyCompletes : Prop :=
  Claim.stagingCopy ∧ (∀ (s : State) (p k : Nat) (c : SeqCopy) (q q' : SeqState), q = (s.tile k).seq → q.step ≠ 0 → q.colour + 1 < c.ctl.ncol →
      (∀ e ∈ q.stage (halfOf q.step), c.importOk e.1 = true) →
      q' = ({ q with waitEnd := false, before := [], changed := [],
                     cflips := addCounts q.cflips (c.coupled q (c.copyIn (s.tile k).sram (q.stage (halfOf q.step)))) }.withStage
        (halfOf q.step) []).withEnds (halfOf q.step) [] →
      s.copyGo p k c = (s.setTile k { s.tile k with sram := c.copyIn (s.tile k).sram (q.stage (halfOf q.step)), seq := q' }).colourTry p k c (q.colour + 1))


/-- R156, R160: a write of TRACE_RD sets the read count; where no tile of the partition waits for trace space it changes its tile alone. -/
def Obligations.TraceRdCompletes : Prop :=
  ∀ (s : State) (k : Nat) (v : BitVec 32), s.Calm → (∀ t ∈ s.tilesOf (s.ownerOf k), (s.tile t).seq.traceWait = false) →
    exec (.traceRd k v) s = .next (s.setTile k { s.tile k with seq := { (s.tile k).seq with traceRd := v.toNat % 2 ^ 16 } })

/-- A tile with its barrier state replaced. -/
def Claim.bar (s : State) (k : Nat) (f : BarState → BarState) : State := s.updTile k fun x => { x with bar := f x.bar }

/-- R207: a tile issues BARRIER or STEP and passes its ARRIVE on as soon as it holds every arrival; the ARRIVE of the tile before it on the
path is held; a RELEASE completes the instruction and passes on. While arrivals are missing only the tile itself changes. -/
def Obligations.BarrierCompletes : Prop :=
  ∀ (s : State) (k : Nat) (q : Rect), s.rect (s.ownerOf k) = some q →
    (s.canIssue k = true →
      exec (.barrier k) s =
        .next (finish s ((Claim.bar (s.took (s.ownerOf k) k) k fun b => { b with issued := some false, iseq := (s.tile k).iseq }).barPass (s.ownerOf k) q k)) ∧
      exec (.stepBarrier k) s =
        .next (finish s ((Claim.bar (s.took (s.ownerOf k) k) k fun b => { b with issued := some true, iseq := (s.tile k).iseq }).barPass (s.ownerOf k) q k))) ∧
    (s.Calm → s.canIssue k = true → ((q.barFrom k).all fun t => (s.tile k).bar.held.any fun h => decide (h.1 = t)) = false →
      (∃ t, exec (.barrier k) s = .next t ∧ s.OnlyTile t k ∧ (t.tile k).bar = { (s.tile k).bar with issued := some false, iseq := (s.tile k).iseq }) ∧
      (∃ t, exec (.stepBarrier k) s = .next t ∧ s.OnlyTile t k ∧ (t.tile k).bar = { (s.tile k).bar with issued := some true, iseq := (s.tile k).iseq })) ∧
    (∀ (src : Nat) (kind : Bool), (s.tile src).bar.issued = some kind → q.has src = true → q.barNext src = some k →
      (s.tile src).bar.sent = true → (s.tile src).bar.release = none → (s.tile k).bar.held.any (fun h => decide (h.1 = src)) = false →
      exec (.barrierArrive k src) s = .next (finish s
        ((Claim.bar s k fun b => { b with held := b.held ++ [(src, kind, (s.tile src).bar.failed)] }).barPass (s.ownerOf k) q k))) ∧
    ((s.tile k).bar.release = some false → (s.tile k).bar.issued = some false →
      exec (.barrierRelease k) s = .next (finish s ((s.barEntry (s.ownerOf k) k).barComplete q k false))) ∧
    ((s.tile k).bar.release = some false → (s.tile k).bar.issued = some true →
      exec (.barrierRelease k) s = .next (finish s (s.barComplete q k false)))

/-- R207: RELEASE completes the instruction of its tile: it holds nothing any more, and the tiles whose ARRIVE it held get RELEASE; no other
tile changes. -/
def Claim.releasePath : Prop :=
  ∀ (s : State) (q : Rect) (k : Nat) (failed : Bool),
    ((s.barComplete q k failed).tile k).bar = {} ∧
    ((s.barComplete q k failed).tile k).halted = ((s.tile k).halted || failed) ∧
    (∀ j ∈ q.barFrom k, ((s.barComplete q k failed).tile j).bar.release = some failed) ∧
    (∀ j, j ≠ k → j ∉ q.barFrom k → (s.barComplete q k failed).tile j = s.tile j)

/-- R267, R279, R306: the north-east tile holds the whole gather of a STEP of a job of one panel, which nothing holds back: MERIDIAN
advances, and the tiles are released. -/
def Obligations.BarrierReleasePath : Prop :=
  Claim.releasePath ∧ (∀ (s : State) (p : Nat) (q : Rect) (x : Part) (r : RunJob) (j : Job), s.rect p = some q → s.ownerOf q.northEast = p →
      s.part p = some x → s.running p = some (r, j) → (s.tile q.northEast).bar.release = none → (s.tile q.northEast).bar.sent = true →
      x.dispatching = true → (s.tile q.northEast).bar.failed = false → (s.tile q.northEast).bar.issued = some true → r.peerLost = false →
      bit j.flags 4 = false → s.mayAdvance p = true →
      exec (.barrierRelease q.northEast) s = .next (finish s (s.releaseStep p q)))

/-- A flit comes to a router of the grid as the oldest of its flow, and the link's SECDED finds nothing (R199, R203). -/
def Claim.arrives (s : State) (x y : Nat) (last : Out) (f : Flit) : Prop :=
  x < 48 ∧ y < 78 ∧ s.cameOver x y f = some last ∧ f.headLost = false ∧ f.link = .clean

/-- R194, R195, R203, R217, R220, R226: a WRITE addressed here is stored under its line mask in the tile, or in the HBM block that this router owns,
and a FENCE is answered; one for a port leaves the mesh; addressed elsewhere it leaves over its output. -/
def Claim.writeFlits : Prop :=
  ∀ (s u : State) (x y : Nat) (last : Out) (f : Flit), f.headerOk = true → Claim.arrives s x y last f → u = s.land x y f → f.type = .write →
    (∀ t : Nat, u.outOf last x y f = .here → f.toPort = none → f.space ≠ 1 → f.poisoned = false → u.logicalAt x y = some t →
      u.mayWrite x y f = true → (f.lineList.any fun i => decide (0xFC00 ≤ f.line + i)) = false →
      exec (.writeFlit x y f) s = .next (finish s
        (((u.wakeTile t).updTile t fun z => z.store (f.lineList.map fun i =>
          ((f.line + i) * 64, fitBytes 64 ((f.data.drop (64 * i)).take 64)))).ackFence x y f))) ∧
    (∀ (p n : Nat) (e : Word), u.outOf last x y f = .here → f.toPort = none → f.space = 1 → f.poisoned = false →
      u.pageAt f.addr = some (p, n, e) → p = f.part → f.part ≠ 0 → ownsHpa x y (writeBlock e f.addr) = true → u.blockHeld e f.addr = true →
      exec (.writeFlit x y f) s = .next (finish s ((u.hbmLines e f).ackFence x y f))) ∧
    (u.outOf last x y f = .here → f.toPort.isSome = true → exec (.writeFlit x y f) s = .next (finish s u)) ∧
    (∀ o : Out, u.outOf last x y f = o → o ≠ .here → u.mayCross x y o f = true →
      exec (.writeFlit x y f) s = .next (finish s (u.fly x y o f)))

/-- R194, R203, R208-R211, R217: a flit of each kind at a router. A READ_REQ at its owner is answered with one read; on its way it joins the
oldest request it merges with, or waits. A RSP_LIST pair forks; a READ_RSP is stored at its LINE; an ACK from the router that holds the last
destination block reaches its descriptor. -/
def Obligations.FlitsComplete : Prop :=
  Claim.writeFlits ∧ (∀ (s u : State) (x y : Nat) (last : Out) (f : Flit), f.headerOk = true →
    (∀ o : Out, Claim.arrives (s.leaveWaiting x y f) x y last f → f.type = .readReq → u = (s.leaveWaiting x y f).land x y f → f.listOk = true →
      u.routeFrom last x y f.dstX f.dstY = o →
      (o = .here → exec (.readReq x y f) s = .next (finish s (u.answerRead x y f))) ∧
      (o ≠ .here → u.mayCross x y o f = true →
        (∀ w, bit (u.router x y).ctrl.toNat 5 = true → mergeInto f.sent (u.router x y).waiting = some w → exec (.readReq x y f) s =
          .next (finish s (u.updRouter x y fun r => { r with waiting := w, merges := bump24 r.merges 1 }))) ∧
        ((bit (u.router x y).ctrl.toNat 5 = false ∨ mergeInto f.sent (u.router x y).waiting = none) → exec (.readReq x y f) s =
          .next (finish s (u.updRouter x y fun r => { r with waiting := r.waiting ++ [f.sent] }))))) ∧
    (Claim.arrives s x y last f → u = s.land x y f →
      (f.type = .rspList → f.listOk = true → exec (.rspList x y f) s = .next (finish s (u.forkAt x y f))) ∧
      (f.type = .readRsp → u.routeFrom last x y f.dstX f.dstY = .here → u.takesWrite x y (u.received f) = true →
        exec (.readRsp x y f) s = .next (finish s ((u.meshWrite x y (u.received f)).ackFence x y (u.received f)))) ∧
      (∀ o : Out, f.type = .readRsp → u.routeFrom last x y f.dstX f.dstY = o → o ≠ .here → u.mayCross x y o f = true →
        exec (.readRsp x y f) s = .next (finish s (u.fly x y o f))) ∧
      (∀ t : Nat, f.type = .ack → u.routeFrom last x y f.dstX f.dstY = .here → u.logicalAt x y = some t →
        u.ownerOf t = f.part → f.part ≠ 0 → u.fenceFrom f.part t f.tag f.srcX f.srcY = true →
        exec (.fenceAck x y f) s = .next (finish s (u.ferryAcked f.part t f.tag)))))

/-- R199, R217, R218: a flit that may not cross a fence is dropped with detector 0x0406, a malformed header with 0x0407, and a header that the link's
SECDED cannot correct with 0x0402 as a device fault. -/
def Obligations.FencesDrop : Prop :=
  ∀ (s u : State) (x y : Nat) (last o : Out) (f : Flit), f.type = .write → u = s.land x y f →
    (Claim.arrives s x y last f → f.headerOk = false → exec (.writeFlit x y f) s = .next (finish s (u.raise { det := 0x0407, loc := Loc.at x y }))) ∧
    (Claim.arrives s x y last f → f.headerOk = true → u.outOf last x y f = o → o ≠ .here → u.isFence x y o = true → f.vc ≠ 3 →
      exec (.writeFlit x y f) s = .next (finish s (u.raise { det := 0x0406, loc := Loc.at x y, part := f.part }))) ∧
    (x < 48 → y < 78 → s.cameOver x y f = some last → f.headLost = true →
      exec (.writeFlit x y f) s = .next (finish s (u.raise { det := 0x0402, loc := Loc.at x y, cls := some 4 })))

/-- R211: the oldest copy of a fork buffer leaves, and the reissue queue sends its oldest request on. -/
def Obligations.RouterQueuesComplete : Prop :=
  ∀ (s : State) (x y : Nat),
    (∀ (o : Out) (c : Flit) (rest : List (Out × Flit)), s.Calm → (s.router x y).fork = (o, c) :: rest →
      exec (.forkBuffer x y) s = .next ((s.updRouter x y fun r => { r with fork := rest }).fly x y o c)) ∧
    (∀ (g : Flit) (rest : List Flit), (s.router x y).reissue = g :: rest →
      exec (.reissue x y) s = .next (finish s ((s.updRouter x y fun r => { r with reissue := rest }).readAt .here x y g)))

/-- R208, R209: two requests merge only when they agree on VC, PART, owner, target and key, neither forbids it, and the joined list keeps to 16
requesters; the joined request carries the requesters of both, the waiting ones first. -/
def Obligations.MergeKeepsRequesters : Prop :=
  ∀ (f : Flit) (l m : List Flit), mergeInto f l = some m →
    m.length = l.length ∧ ∃ (pre post : List Flit) (w : Flit), l = pre ++ w :: post ∧ w.merges f = true ∧ (∀ v ∈ pre, v.merges f = false) ∧
      m = pre ++ { w with reqs := w.reqs ++ f.reqs } :: post ∧ (w.reqs ++ f.reqs).length ≤ 16

/-- R21, R194, R200, R201, Table 8-10: a CRC error replays at most 32 flits, a lane failure counts towards the third, the scrub of a clocked tile
moves to the next line and reports what it finds, and a read of ROUTER_COUNT returns the counters and restarts FORK_HWM. -/
def Obligations.LinksAndRegistersComplete : Prop :=
  ∀ (s : State),
    (∀ (n sent : Nat) (l : Stitch), n < 464 → l = s.mesh.links.getD n {} → l.disabled = false → exec (.stitchCrc n sent) s = .next (finish s
      (({ s with mesh := { s.mesh with links := s.mesh.links.set n { l with replays := l.replays + min sent 32 } } } : State).raise
        { det := 0x0403, loc := linkLoc n, place := n }))) ∧
    (∀ (n : Nat) (l : Stitch), n < 464 → l = s.mesh.links.getD n {} → l.disabled = false → exec (.stitchLane n) s = .next (finish s
      (({ s with mesh := { s.mesh with links := s.mesh.links.set n { l with lanes := l.lanes + 1, disabled := decide (2 ≤ l.lanes) } } } : State).raise
        { det := 0x0404, loc := linkLoc n, place := n }))) ∧
    (∀ (x y : Nat) (ecc : Ecc), s.Calm → s.unitsOff x y = true → exec (.sramScrub x y ecc) s = .next s) ∧
    (∀ (x y : Nat) (u : State), x < 48 → y < 78 → s.unitsOff x y = false →
      u = { s with mesh := { s.mesh with scrub := s.mesh.scrub.set (physIx x y) ((s.mesh.scrub.getD (physIx x y) 0 + 1) % 65536) } } →
      (s.Calm → exec (.sramScrub x y .clean) s = .next u) ∧
      exec (.sramScrub x y .corrected) s = .next (finish s (u.raise { det := 0x0301, loc := Loc.at x y, part := u.partAt x y })) ∧
      exec (.sramScrub x y .failed) s = .next (finish s (u.raise { det := 0x0302, loc := Loc.at x y, part := u.partAt x y }))) ∧
    (∀ x y : Nat, s.Calm →
      exec (.routerCount x y) s = .next { (s.updRouter x y fun r => { r with hwm := 0 }) with readOut := (s.router x y).count })

/-- R236-R238, R241, R242: the walk of a missed page whose entries read clean. A level-1 entry that is not valid faults with code 1. A valid, unlocked entry goes to the front of the TLB; a first-touch
entry puts the descriptor into FAULT_WAIT with code 1 and the address; a locked entry holds it. Each changes its tile alone. A corrected entry is
reported first; a ferry held on LOCK walks again. -/
def Obligations.PageWalkCompletes : Prop :=
  ∀ (s : State) (k n v va : Nat) (wr : Bool) (x : Part) (sl : Slot), sl = (s.tile k).slot n → s.part (s.ownerOf k) = some x →
    (∀ e1 : Word, e1 = x.level1.getD (v / 2 ^ 11) 0 → level1Reserved e1 = false → pteValid e1 = false → sl.wantsHbm = true →
      missing x (s.tile k).ferry.tlb sl.pages = some (v, va, wr) →
      exec (.pageWalk k n .clean) s = .next (finish s (s.ferryFault (s.ownerOf k) k n 1 va .refused))) ∧
    (sl.wantsHbm = true → missing x (s.tile k).ferry.tlb sl.pages = some (v, va, wr) → level1Reserved (x.level1.getD (v / 2 ^ 11) 0) = false →
      pteValid (x.level1.getD (v / 2 ^ 11) 0) = true →
      (s.Calm → pteReserved (x.pte v) = false → pteLock (x.pte v) = false → pteValid (x.pte v) = true → s.frameBad (x.pte v) = false →
        exec (.pageWalk k n .clean) s = .next (s.setTile k
          { s.tile k with ferry := { (s.tile k).ferry with tlb := tlbPut (s.tile k).ferry.tlb v (x.pte v) } })) ∧
      (s.Calm → pteReserved (x.pte v) = false → pteLock (x.pte v) = false → pteValid (x.pte v) = false → pteTouch (x.pte v) = true →
        exec (.pageWalk k n .clean) s = .next (s.setTile k
          ((s.tile k).setSlot n { sl with phase := .faultWait, faultCode := 1, faultVa := va } true))) ∧
      (s.Calm → pteReserved (x.pte v) = false → pteLock (x.pte v) = true → (pteValid (x.pte v) && s.frameBad (x.pte v)) = false →
        exec (.pageWalk k n .clean) s = .next (s.setTile k ((s.tile k).setSlot n { sl with locked := true } false))) ∧
      exec (.pageWalk k n .corrected) s =
        .next (finish s ((s.raise { det := 0x0501, part := 0 }).walk (s.ownerOf k) k n x v va .corrected)) ∧
      exec (.pageWalk k n .failed) s = .next (finish s ((s.raise
        { det := 0x0502, loc := { unit := siteOf (tableHpa x.tables 0) }, place := tableHpa x.tables 0 / 2 ^ 21 }).ferryFault
          (s.ownerOf k) k n 6 va .dataLoss))) ∧
    (sl.phase = .run → sl.locked = true →
      missing x (s.tile k).ferry.tlb ({ sl with locked := false } : Slot).pages = some (v, va, wr) →
      exec (.lockRetry k n) s =
        .next (finish s ((s.setSlot k n { sl with locked := false } false).walk (s.ownerOf k) k n x v va .clean)))

/-- R242, R251: a first-touch fault takes the first frame of the reserve, zeroed, maps it at the faulting page, counts detector 0x0604, and the
descriptor runs again; with the reserve empty the fault is final, code 7, and the job ends with ST_LIMIT. A page that another fault has mapped
meanwhile lets the descriptor run; one of a partition that is held keeps FAULT_WAIT (R253). -/
def Obligations.FirstTouchCompletes : Prop :=
  ∀ (s : State) (k n : Nat) (x : Part) (sl : Slot), sl = (s.tile k).slot n → s.part (s.ownerOf k) = some x → sl.phase = .faultWait →
    (pteValid (x.pte (sl.faultVa / 2 ^ 21)) = false →
      (∀ (f : Nat) (rest : List Nat) (e : Word) (u : State), x.reserve = f :: rest → e = mkPte true x.gen (bit x.flags 0) true f →
        u = (({ s with hbm := s.hbm.clearPage e } : State).updPart (s.ownerOf k) fun y =>
                { y with ptes := y.ptes.set (sl.faultVa / 2 ^ 21) e, reserve := rest }).raise
              { det := 0x0604, loc := { s.locOf k with unit := n }, part := s.ownerOf k } →
        (x.dispatching = true → exec (.firstTouch k n) s = .next (finish s (u.setSlot k n
          { sl with phase := .run, faultCode := 0, faultVa := 0, fetched := 0 } true))) ∧
        (x.dispatching = false → exec (.firstTouch k n) s = .next (finish s u))) ∧
      (x.reserve = [] → x.dispatching = true →
        exec (.firstTouch k n) s = .next (finish s (s.ferryFault (s.ownerOf k) k n 7 sl.faultVa .limit)))) ∧
    (pteValid (x.pte (sl.faultVa / 2 ^ 21)) = true → x.dispatching = true → exec (.firstTouch k n) s = .next (finish s
      ((s.raise { det := 0x0604, loc := { s.locOf k with unit := n }, part := s.ownerOf k }).setSlot k n
        { sl with phase := .run, faultCode := 0, faultVa := 0, fetched := 0 } true)))

/-- R227, R229, R247, R301, R303: the next request of a running descriptor whose pages are in the TLB, permitted and readable; a receiver takes
its message first. The blocks are accessed in order; a descriptor that sends reads ahead, and its message goes out with the last read; any other
moves its elements, and ELEM_DONE follows. -/
def Obligations.HbmRequestCompletes : Prop :=
  ∀ (s v : State) (k n : Nat) (ecc : Ecc) (x : Part) (sl : Slot) (used : List (Nat × Nat × Bool × Word)) (u r : State) (p : Nat),
    p = s.ownerOf k → v = (if ((s.tile k).slot n).desc.src = 3 then s.takeMessage p k n else s) → sl = (v.tile k).slot n →
    v.part p = some x → sl.wantsHbm = true → x.hold ≠ .rest → (v.tile k).ferryStalls sl.desc = false →
    missing x (v.tile k).ferry.tlb sl.pages = none → x.hitFault (v.tile k).ferry.tlb sl.pages = none →
    used = usedEntries (v.tile k).ferry.tlb sl.pages →
    u = v.updTile k (fun y => { y with ferry := { y.ferry with tlb := used.foldl (fun l q => tlbPut l q.1 q.2.2.2) y.ferry.tlb } }) →
    u.accessAll p ecc used = (r, none) →
    (sl.desc.dst ≠ 3 → exec (.hbmRequest k n ecc) s = .next (finish s
      ((r.ferryMove p k n sl.cursor (sl.desc.chunkEnd sl.cursor)).ferryProgress p k n (sl.desc.chunkEnd sl.cursor)))) ∧
    (sl.desc.dst = 3 → sl.desc.chunkEnd sl.cursor ≠ sl.desc.total → exec (.hbmRequest k n ecc) s = .next (finish s
      (r.setSlot k n { sl with fetched := sl.desc.chunkEnd sl.cursor } false))) ∧
    (sl.desc.dst = 3 → sl.desc.chunkEnd sl.cursor = sl.desc.total → exec (.hbmRequest k n ecc) s = .next (finish s
      (((r.setSlot k n { sl with fetched := sl.desc.chunkEnd sl.cursor } false).sendDescriptor p k n).portPoll p k n)))

/-- R240: a PTE change locks the entry, invalidates the page in every ferry of the partition and waits; each acknowledgement drops the entry from
its ferry, and the last one moves the page and writes the new entry. -/
def Obligations.PteChangeCompletes : Prop :=
  ∀ (s : State),
    (∀ (p vpn : Nat) (pte : Word) (x : Part) (u : State), s.part p = some x → s.changeOk (x.pte vpn) pte = true → s.Calm →
      u = (s.updPart p fun y => { y with ptes := y.ptes.set vpn (pteSet (y.pte vpn) 59 true) }).updTiles (s.tilesOf p)
        (fun y => { y with ferry := { y.ferry with invalidating := vpn :: y.ferry.invalidating } }) →
      exec (.pteChange p vpn pte) s = .next { u with hbm := { u.hbm with changes := ⟨p, vpn, pte⟩ :: u.hbm.changes } }) ∧
    (∀ (k vpn : Nat), vpn ∈ (s.tile k).ferry.invalidating →
      exec (.invalidateAck k vpn) s = .next (finish s ((s.setTile k
        { s.tile k with ferry := { (s.tile k).ferry with
            invalidating := (s.tile k).ferry.invalidating.filter (fun v => decide (v ≠ vpn)),
            tlb := (s.tile k).ferry.tlb.filter fun e => decide (e.1 ≠ vpn) } }).changeDone (s.ownerOf k) vpn)))

/-- R228, R229: a bank refresh notes the temperature and counts; the patrol scrub moves to the next block of a stack in service and reports what it
finds: a corrected word, a parity block given back by its stripe, or an uncorrectable block, which is poisoned from then on. -/
def Obligations.ControllersComplete : Prop :=
  ∀ (s : State) (site : Nat) (st : Stack), st = s.hbm.stackTab.getD site {} →
    (∀ temp : Nat, s.Calm → s.fuses.hasStack site = true → exec (.refreshBank site temp) s = .next
      { s with hbm := { s.hbm with stackTab := s.hbm.stackTab.set site { st with temp := temp, refreshes := st.refreshes + 1 } } }) ∧
    (∀ (u : State) (hpa : Nat), s.stackUp site = true → hpa = site * 2 ^ 36 + st.scrub * 256 →
      u = { s with hbm := { s.hbm with stackTab := s.hbm.stackTab.set site { st with scrub := (st.scrub + 1) % 2 ^ 28 } } } →
      (s.Calm → exec (.patrolScrub site .clean) s = .next u) ∧
      exec (.patrolScrub site .corrected) s = .next (finish s
        (u.raise { det := 0x0501, loc := { unit := site }, part := (u.frameOwner (hpa / 2 ^ 21)).1, place := hpa / 2 ^ 14 * 2 ^ 14 })) ∧
      ((u.frameOwner (hpa / 2 ^ 21)).2 = true → ((List.range 8).any fun i => u.hbm.lost (8 * (site / 8) + i)) = false → exec (.patrolScrub site .failed) s = .next (finish s
        (u.raise { det := 0x0505, loc := { unit := site }, part := (u.frameOwner (hpa / 2 ^ 21)).1 }))) ∧
      (((u.frameOwner (hpa / 2 ^ 21)).2 = false ∨ ((List.range 8).any fun i => u.hbm.lost (8 * (site / 8) + i)) = true) → exec (.patrolScrub site .failed) s = .next (finish s
        (({ u with hbm := { u.hbm with poisoned := hpa / 256 :: u.hbm.poisoned } } : State).raise
          { det := 0x0502, loc := { unit := site }, part := (u.frameOwner (hpa / 2 ^ 21)).1, place := hpa / 2 ^ 21 }))))

/-- A request row completes: where a frame of its opcode is served and what P says of the panel and the request holds, the command answers the
state E names, at the command's end. -/
def Claim.served (c : VFrame → Instr) (op : Nat) (P : State → Req → Prop) (E : State → Req → State) : Prop :=
  ∀ (s : State) (f : VFrame), s.Serves op f → P (s.taken op f) (f.request op) →
    exec (c f) s = .next (finish s (E (s.taken op f) (f.request op)))

/-- R322-R324: an accepted request frame changes mailboxes, what was sent and, through an acknowledgement of JOB_DONE, the journal; a reply changes
mailboxes and what was sent, and of the mailboxes only its own. -/
def Obligations.RequestsKeepTheRest : Prop :=
  (∀ (s : State) (op : Nat) (f : VFrame), s.Serves op f →
    s.taken op f = { s with host := (s.taken op f).host, journal := (s.taken op f).journal }) ∧
  (∀ (s : State) (r : Req) (st : Status) (body : List Byte),
    s.reply r st body = { s with host := (s.reply r st body).host } ∧ (∀ m, m ≠ r.box → (s.reply r st body).box m = s.box m))

/-- R323, R330, R331: KEEPALIVE asks for no reply; BYE closes its session: no key, no outstanding request, and of the frames only JOB_DONE and EVENT
are kept. -/
def Obligations.SessionFramesComplete : Prop :=
  Claim.served .keepalive 0x03 (fun _ _ => True) (fun u r => u.settle r) ∧
    (∀ (s : State) (f : VFrame), s.Calm → s.Serves 0x04 f → ∃ t, exec (.byeFrame f) s = .next t ∧
      (t.box f.mailbox.toNat).live = false ∧ (t.box f.mailbox.toNat).kMac = none ∧ (t.box f.mailbox.toNat).kData = none ∧
      (t.box f.mailbox.toNat).outstanding = [] ∧ (t.box f.mailbox.toNat).unacked = [] ∧
      ∀ o ∈ (t.box f.mailbox.toNat).waiting, o.opcode = 0x42 ∨ o.opcode = 0xF0)

/-- R326, R327: HELLO in its form opens a session: the next FEATURE_EPOCH, the host's bits that the panel has too (of another
version only the basic set), no key, and FEATURES on the wire;
nothing but the mailbox and the wire changes. -/
def Obligations.HelloOpensSession : Prop :=
  ∀ (s : State) (f : VFrame), s.Calm → (s.vorlaFront 0x01 f).2 = true → (f.isNull = true → (s.box f.mailbox.toNat).live = false) →
    (f.mailbox.toNat ≠ 0 → (s.box 0).epoch ≠ 0) → f.flags &&& 0xAF = 0 → f.reserved5 = 0 → f.reserved26 = 0 → f.epoch = 0 →
    f.payload.length = 16 → (∀ b ∈ f.payload.drop 8, b = 0) → BitVec.ofNat 64 (beNat (f.payload.take 8)) &&& ~~~definedFeatures = 0 →
    ∃ (t : State) (w : VWire), exec (.hello f) s = .next t ∧ t = { s with host := t.host } ∧ t.host.sent = w :: s.host.sent ∧
      w.mailbox = f.mailbox.toNat ∧ w.opcode = 0x02 ∧ w.tag = f.tag ∧ w.seq = 0 ∧ w.ack = 1 ∧
      (t.box f.mailbox.toNat).live = true ∧ (t.box f.mailbox.toNat).kMac = none ∧ (t.box f.mailbox.toNat).kData = none ∧
      (t.box f.mailbox.toNat).epoch = nextEpoch (s.box f.mailbox.toNat).epoch ∧
      (t.box f.mailbox.toNat).agreed = BitVec.ofNat 64 (beNat (f.payload.take 8)) &&& s.features &&&
        (if f.version.toNat / 16 = 1 then BitVec.allOnes 64 else basicFeatures) ∧
      (t.box f.mailbox.toNat).rxNext = 1 ∧ (t.box f.mailbox.toNat).txNext = 1 ∧
      ∀ m, m ≠ f.mailbox.toNat → t.box m = s.box m

/-- R318, R322, R323, R330: the timers of a session. An unacknowledged frame goes out again to where the host was last heard and detector 0x0B03 counts; after 100 us an
acknowledgement goes out as UNSEQ KEEPALIVE; an expired session closes; KEEPALIVE goes out on both host ports and KEEP_COUNT rises. -/
def Claim.sessionTimers : Prop :=
  ∀ (s : State),
    (∀ (m : Nat) (seq : BitVec 32) (v : VSent), (s.box m).unacked.find? (fun v => decide (v.wire.seq = seq)) = some v →
      exec (.vorlaRetx m seq) s = .next (finish s ((((s.putWire { v.wire with port := (s.box m).hostPort, dst := (s.box m).hostMac }).updBox m fun b =>
        { b with unacked := b.unacked.map fun u => if u.wire.seq = seq then { u with interval := min 64 (2 * u.interval) } else u }).raise
          { det := 0x0B03, loc := { die := 0x40, unit := (s.box m).hostPort }, part := m })))) ∧
    (∀ m : Nat, s.Calm → (s.box m).live = true → (s.box m).ackDue = true → ∃ (t : State) (w : VWire), exec (.ackDeadline m) s = .next t ∧
      t = { s with host := t.host } ∧ t.host.sent = w :: s.host.sent ∧ w.opcode = 0x03 ∧ bit w.flags 3 = true ∧ w.ack = (s.box m).rxNext ∧
      (t.box m).ackDue = false) ∧
    (∀ m : Nat, s.Calm → (s.box m).live = true → exec (.sessionExpiry m) s = .next (s.updBox m Mailbox.close)) ∧
    (s.Calm → s.power.auxUp = true → ∃ (t : State) (v w : VWire), exec .keepaliveSend s = .next t ∧ t = { s with host := t.host } ∧
      t.host.keepCount = s.host.keepCount + 1 ∧ t.host.sent = v :: w :: s.host.sent ∧ v.port = 1 ∧ w.port = 0 ∧
      v.opcode = 0x03 ∧ w.opcode = 0x03)

/-- R368: a host port's link changes; a link that has gone down or was retrained counts detector 0x0B04. -/
def Obligations.SessionTimersComplete : Prop :=
  Claim.sessionTimers ∧ (∀ (s : State) (port : Nat) (up retrained : Bool) (q : HostPort) (u : State), q = s.host.ports.getD port {} → port < 2 → q.disabled = false →
      s.power.inReset = false → u = { s with host := { s.host with ports := s.host.ports.set port { q with up := up } } } →
      (((q.up && !up) || retrained) = false → s.Calm → exec (.hostLink port up retrained) s = .next u) ∧
      (((q.up && !up) || retrained) = true → exec (.hostLink port up retrained) s =
        .next (finish s (u.raise { det := 0x0B04, loc := { die := 0x40, unit := port }, place := port }))))


/-- R318, R320, Table 12-3: a frame whose trailer does not verify changes no partition's memory and reaches no handler: detector 0x0B01 counts and
REPLY_ERROR ST_AUTH goes out under the null key. -/
def Obligations.BadTrailerRefused : Prop :=
  ∀ (s : State) (f : VFrame) (op : Nat) (h : Req → State → State) (port : HostPort), port = s.host.ports.getD f.port {} →
    s.power.inReset = false → port.up = true → port.disabled = false → s.firm.phase ≠ .committed → s.firm.phase ≠ .starting → s.firm.mode = .run →
    f.accepted op = true → f.magic = 0x5A4D → f.version.toNat / 16 = 1 → s.mailboxExists f.mailbox.toNat = true → s.trailerOk op f = false →
    s.vorlaIn op f h = ((s.raise { det := 0x0B01, loc := { die := 0x40, unit := f.port }, part := f.mailbox.toNat }).replyErrorNull f op .auth).shaped
      s.fuses s.geom

/-- R361, R362, R373, R380: LOAD_BEGIN opens a load, LOAD_CHUNK keeps its bytes at their offset, LOAD_END closes it and installs the whole image,
program or pages; LOG_READ streams the Plate ring, a tile's ring bytes, or a partition's memory under seal. -/
def Obligations.LoadsComplete : Prop :=
  Claim.served .loadBegin 0x10
    (fun u r => field r.payload 0 1 ≤ 2 ∧ r.payload.length = (if field r.payload 0 1 = 2 then 17 else 9) ∧
      (field r.payload 0 1 = 0 ↔ r.box = 0) ∧ u.trust.bootLocked = false ∧ (u.box r.box).openLoad = none ∧
      (field r.payload 0 1 = 0 → u.firm.phase = .idle ∧ u.firm.starting = false) ∧ (r.box ≠ 0 → (u.part r.box).isSome = true))
    (fun u r => (u.updBox r.box fun b =>
      { b with openLoad := some { target := field r.payload 0 1, length := field r.payload 1 8, va := field r.payload 9 8 } }).reply r .ok []) ∧
  (∀ (l : OpenLoad) (data : List Byte), Claim.served .loadChunk 0x11
    (fun u r => (u.box r.box).openLoad = some l ∧ u.trust.bootLocked = false ∧ 8 ≤ r.payload.length ∧
      (l.target = 0 → data = r.payload.drop 8) ∧ (l.target ≠ 0 → u.openData r (r.payload.drop 8) = some data) ∧
      field r.payload 0 8 + data.length ≤ l.length)
    (fun u r => (u.updBox r.box fun b =>
      { b with openLoad := some { l with chunks := l.chunks.set (field r.payload 0 8) data } }).reply r .ok [])) ∧
  (∀ (l : OpenLoad), Claim.served .loadEnd 0x12
    (fun u r => (u.box r.box).openLoad = some l ∧ u.trust.bootLocked = false ∧ r.payload = [] ∧ (joinChunks 0 l.chunks).length = l.length)
    (fun u r =>
      let x := (u.updBox r.box fun b => { b with openLoad := none }).loadInstall r.box l (joinChunks 0 l.chunks)
      x.2.reply r x.1 [])) ∧
  (∀ (s : State) (p : Nat) (l : OpenLoad) (bs : List Byte),
    (l.target = 0 → s.firm.mode = .run → s.firm.phase = .idle → bs.length ≤ 16777216 →
      s.loadInstall p l bs = (.ok, { s with firm := { s.firm with stagedBytes := bs } })) ∧
    (∀ x : Part, l.target = 2 → s.part p = some x → x.rangeMapped l.va bs.length = true →
      s.loadInstall p l bs = (.ok, s.writeVa x l.va bs))) ∧
  Claim.served .logRead 0x60
    (fun _ r => r.payload.length = 16 ∧ field r.payload 0 1 = 0 ∧ zeroBytes r.payload 1 1 = true ∧ field r.payload 4 4 ≤ 16777216 ∧ r.box = 0)
    (fun u r =>
      let at_ := max (field r.payload 8 8) u.firm.plateOldest
      u.replyStream r .ok false at_ (u.firm.plate.read at_ (min (field r.payload 4 4) (u.firm.plateNext - at_)))) ∧
  Claim.served .logRead 0x60
    (fun u r => r.payload.length = 16 ∧ field r.payload 0 1 = 1 ∧ zeroBytes r.payload 1 1 = true ∧ field r.payload 4 4 ≤ 16777216 ∧ r.box ≠ 0 ∧
      (u.tilesOf r.box).contains (field r.payload 2 2) = true ∧ 0xFC00 ≤ field r.payload 8 8 ∧
      field r.payload 8 8 * 64 + field r.payload 4 4 ≤ 0xFE00 * 64)
    (fun u r => u.replyStream r .ok false 0 ((u.tile (field r.payload 2 2)).sram.read (field r.payload 8 8 * 64) (field r.payload 4 4))) ∧
  (∀ x : Part, Claim.served .logRead 0x60
    (fun u r => r.payload.length = 16 ∧ field r.payload 0 1 = 2 ∧ zeroBytes r.payload 1 1 = true ∧ field r.payload 4 4 ≤ 16777216 ∧
      u.part r.box = some x ∧ x.sealed_ = none ∧ x.rangeMapped (field r.payload 8 8) (field r.payload 4 4) = true)
    (fun u r => u.replyStream r .ok true 0 (u.readVa x (field r.payload 8 8) (field r.payload 4 4))))

/-- R380-R388: FW_STAGE while no activation is in progress keeps an image that the checks of R375 and the hand-over range accept, and drops any other: one
of which too few bytes are loaded, one that a check refuses, one whose range the running image is not in. FW_ACTIVATE of the staged image puts the
activation into WAITING; its cancel or its deadline ends it, with ST_ABORTED for its requester. The commit point, where FW_COMMIT is not worn, writes
the hand-over block and FW_COMMIT and raises the SVN floor. The hand-over runs the new image on the other loader bank and answers, or the complex
restarts. -/
def Obligations.ActivationCompletes : Prop :=
  (∀ (g : Image) (st : Status), Claim.served .fwStage 0x13
    (fun u r => r.payload.length = 8 ∧ zeroBytes r.payload 4 4 = true ∧ u.firm.phase = .idle ∧
      g = imageOf (u.firm.stagedBytes.take (field r.payload 0 4)) ∧
      st = (if u.firm.stagedBytes.length < field r.payload 0 4 then .badFormat
        else if u.checkImage (u.firm.stagedBytes.take (field r.payload 0 4)) ≠ .ok then u.checkImage (u.firm.stagedBytes.take (field r.payload 0 4))
        else if u.firm.image.any (fun run => decide (run.handVer.toNat < g.handMin.toNat ∨ g.handVer.toNat < run.handVer.toNat)) then .refused else .ok))
    (fun u r =>
      let v := u.traceCheck st g
      if st = .ok then
        ({ v with firm := { v.firm with staged := some g } } : State).reply r .ok (beBytes 4 g.svn.toNat ++ beBytes 8 g.buildId.toNat ++ fitBytes 32 g.digest)
      else ({ v with firm := { v.firm with staged := none, stagedBytes := [] } } : State).reply r st (List.replicate 44 0))) ∧
  (∀ g : Image, Claim.served .fwActivate 0x14
    (fun u r => r.payload.length = 36 ∧ field r.payload 32 1 = 0 ∧ zeroBytes r.payload 33 1 = true ∧ field r.payload 34 2 ≠ 0 ∧
      u.firm.staged = some g ∧ g.digest = r.payload.take 32 ∧ u.firm.phase = .idle ∧ u.power.emergency = false)
    (fun u r => ({ u with firm := { u.firm with phase := .waiting, actTag := r.tag, actSeq := r.seq } } : State).tracePoint 0x0C20 0 0 [])) ∧
  Claim.served .activateCancel 0x14
    (fun u r => r.payload.length = 36 ∧ field r.payload 32 1 = 1 ∧ zeroBytes r.payload 33 1 = true ∧ field r.payload 34 2 = 0 ∧
      u.firm.phase = .waiting)
    (fun u r => (u.actAbort 3).actAnswer r .ok 3) ∧
  (∀ (s : State), s.firm.phase = .waiting → exec .activationDeadline s = .next (finish s (s.actAbort 2))) ∧
  (∀ (s : State) (reason : Nat), s.firm.phase = .waiting → s.actAbort reason =
    (({ s with firm := { s.firm with phase := .idle } } : State).reply { box := 0, opcode := 0x14, tag := s.firm.actTag } .aborted
      (beBytes 1 reason ++ [0, 0, 0] ++ beBytes 8 ((s.firm.image.map fun g => g.buildId.toNat).getD 0))).tracePoint 0x0C21 0 0
        [BitVec.ofNat 8 reason]) ∧
  (∀ (s : State) (g : Image) (u v : State), s.firm.staged = some g → s.firm.phase = .waiting → s.mayCommit = true → (s.preg 24).worn = false →
    u = ({ s with firm := { s.firm with handover := s.handBlock, phase := .committed } } : State).pregWriteWatched 24
      (BitVec.ofNat 64 (s.firm.actSeq.toNat * 2 ^ 32 + g.buildId.toNat % 2 ^ 32)) →
    v = (if (u.preg 1).value.toNat < g.svn.toNat then u.pregWriteWatched 1 (g.svn.setWidth 64) else u) →
    exec .commitPoint s = .next (finish s (v.tracePoint 0x0C22 0 0 (leBytes 8 v.firm.actSeq.toNat)))) ∧
  (∀ (s : State) (g old : Image) (u : State), s.firm.staged = some g → s.firm.image = some old → s.firm.phase = .committed →
    u = ({ s with firm := { s.firm with image := some g, staged := none, stagedBytes := [], phase := .idle, handover := [],
                                        loaderBank := 1 - s.firm.loaderBank, stewardDown := [] } } : State).loadStewards g s.fuses.stewardDies →
    exec (.handover true) s =
      .next (finish s ((u.actReply .ok 0).tracePoint 0x0C23 0 0 (leBytes 8 old.buildId.toNat ++ leBytes 8 g.buildId.toNat))) ∧
    exec (.handover false) s = .next (finish s (s.mgtRestart 0x0C04)))

/-- R373, R376-R379, R391-R396, R464-R467, R488: MODE RUN is reached from a cold or a warm start; a watchdog of the management complex takes the panel to
RECOVERY; a steward that fails is marked and reloaded; a filled quarter of the Plate ring is mirrored; persistent registers are
read with WCOUNT and written by their owner with the expected WCOUNT, and one whose first or second copy fails its check is rewritten from the other with
detector 0x0D11; a due plan is written into the bank not in force. -/
def Obligations.BringUpCompletes : Prop :=
  (∀ (s : State) (g : Image), s.firm.image = some g → s.firm.starting = true →
    ((s.firm.mode = .recovery ∧ s.firm.stewards ≠ []) → exec .modeRunReached s = .next (finish s (s.warmRun g))) ∧
    ((s.firm.mode ≠ .recovery ∨ s.firm.stewards = []) → exec .modeRunReached s = .next (finish s (s.coldRun g)))) ∧
  (∀ (s : State) (cause : BitVec 16), s.firm.mode = .run ∨ s.firm.starting = true →
    exec (.drtWatchdog cause) s = .next (finish s (s.mgtRestart (if cause = 0x0C03 then 0x0C03 else 0x0C01)))) ∧
  (∀ (s : State) (det : Nat), (s.mgtRestart det).firm.mode = .recovery ∧ (s.mgtRestart det).firm.phase = .idle ∧
    (s.mgtRestart det).firm.starting = false) ∧
  (∀ (s : State) (die : Nat), s.firm.stewards.has die = true → exec (.stewardFault die) s = .next (finish s
    (({ s with firm := { s.firm with stewards := s.firm.stewards.erase die, stewardDown := die :: s.firm.stewardDown } } : State).raise
      { det := 0x0C05, loc := { die := die } }))) ∧
  (∀ (s : State) (g : Image) (die : Nat), s.firm.image = some g → s.firm.stewardDown.contains die = true →
    (s.partsOnDie die).all s.atBoundary = true →
    (s.Calm → exec (.stewardReload die true) s = .next { s with firm := { s.firm with
      stewards := s.firm.stewards.set die g.stewardIf, stewardDown := s.firm.stewardDown.filter fun d => decide (d ≠ die) } }) ∧
    (∀ (n : Nat) (u : State), n = s.err.stewardFails.getD die 0 + 1 →
      u = { s with err := { s.err with stewardFails := s.err.stewardFails.set die n } } →
      exec (.stewardReload die false) s = .next (finish s
        (if n = 2 ∧ die < 24 then u.stewardLost die else u.raise { det := 0x0C05, loc := { die := die } })))) ∧
  (∀ (s : State), s.Calm → 65536 * (s.firm.mirrored + 1) ≤ s.firm.plateNext →
    exec .plateMirror s = .next { s with firm := { s.firm with mirrored := s.firm.mirrored + 1 } }) ∧
  Claim.served .persistRead 0x80
    (fun _ r => r.payload.length = 4 ∧ field r.payload 2 2 ≠ 0 ∧ field r.payload 0 2 + field r.payload 2 2 ≤ 512)
    (fun w r =>
      let u := w.almRead (field r.payload 0 2) (field r.payload 2 2)
      u.replyStream r .ok false 0 ((List.range (field r.payload 2 2)).flatMap fun i =>
      beBytes 2 (field r.payload 0 2 + i) ++ beBytes 1 (pregOwner (field r.payload 0 2 + i)) ++
        beBytes 1 (bnat (u.preg (field r.payload 0 2 + i)).worn) ++ beBytes 4 (u.preg (field r.payload 0 2 + i)).wcount.toNat ++
        beBytes 8 (u.preg (field r.payload 0 2 + i)).value.toNat)) ∧
  Claim.served .persistWrite 0x81
    (fun u r => r.payload.length = 16 ∧ zeroBytes r.payload 2 2 = true ∧ pregOwner (field r.payload 0 2) = 2 ∧
      (u.preg (field r.payload 0 2)).worn = false ∧ (u.preg (field r.payload 0 2)).wcount.toNat = field r.payload 4 4)
    (fun u r =>
      let v := u.pregWriteWatched (field r.payload 0 2) (BitVec.ofNat 64 (field r.payload 8 8))
      v.reply r .ok (beBytes 4 (v.preg (field r.payload 0 2)).wcount.toNat)) ∧
  (∀ (s : State) (whole : Bool), s.planDue = true → exec (.planWrite whole) s = .next (finish s (s.writePlan whole))) ∧
  (∀ (s : State) (n : Nat) (v : Word), (s.preg n).worn = false →
    (s.pregWrite n v).preg n = { value := v, wcount := (s.preg n).wcount + 1 } ∧ (∀ m, m ≠ n → (s.pregWrite n v).preg m = s.preg m) ∧
    s.pregWrite n v = { s with firm := { s.firm with pregs := (s.pregWrite n v).firm.pregs } }) ∧
  (∀ (s : State) (n : Nat) (v : Word), (s.preg n).worn = true → s.pregWrite n v = s) ∧
  (∀ (s : State) (n : Nat), ((s.preg n).bad0 ^^ (s.preg n).bad1) = true → s.almCheck n =
    ({ s with firm := { s.firm with pregs := s.firm.pregs.set n { value := (s.preg n).value, wcount := (s.preg n).wcount } } } : State).raise
      { det := 0x0D11, loc := { die := 0x40, unit := n } })

/-- R408, R409, R411: SESSION_OPEN. MBX_OFFER draws a key pair and signs the offer; MBX_FINISH derives the mailbox keys when the host's signature
holds and answers ST_AUTH when it does not; LINK_OFFER, LINK_ACCEPT, LINK_FINISH record a link secret under the same condition; LINK_DROP removes it
and ends the jobs of its peer; an offer expires. -/
def Obligations.KeyExchangesComplete : Prop :=
  Claim.served .mbxOffer 0x20
    (fun u r => r.payload.length = 36 ∧ field r.payload 0 1 = 0 ∧ zeroBytes r.payload 1 3 = true ∧ u.trust.identity ≠ none ∧ u.ent.state = .run)
    (fun u r =>
      let d := u.ent.seed.output 136
      let kp := Config.kemKeyPair (d.1.take 64)
      let nonce := (d.1.drop 64).take 32
      let t1 := sessionT1 r.box u.host.nextSess u.bootEpoch (r.payload.drop 4) nonce (fitBytes 1568 kp.1)
      let v : State := { u with ent := d.2, host := { u.host with nextSess := u.host.nextSess + 1 } }
      (v.updBox r.box fun b => { b with offer := some ⟨u.host.nextSess, t1, kp.2⟩ }).reply r .ok
        (beBytes 4 u.host.nextSess.toNat ++ nonce ++ fitBytes 1568 kp.1 ++ u.trust.sign t1 (d.1.drop 96))) ∧
  (∀ (o : MbxOffer) (ok : Bool) (ct key kd t2 : List Byte), Claim.served .mbxFinish 0x20
    (fun u r => r.payload.length = 4649 ∧ field r.payload 0 1 = 1 ∧ zeroBytes r.payload 1 3 = true ∧ (u.box r.box).offer = some o ∧
      field r.payload 4 4 = o.sess.toNat ∧ ct = (r.payload.drop 8).take 1568 ∧ key = (r.payload.drop 1576).take 1793 ∧ kd = digest256 key ∧
      t2 = digest256 (o.t1 ++ digest256 ct) ∧
      ok = (u.hostKeyOk r.box kd && Config.falconVerify key t2 (r.payload.drop 3369)))
    (fun u r =>
      if ok = true then
        ((u.updPart r.box fun x => { x with tenantKd := some kd }).updBox r.box fun b =>
          { b with offer := none, kMac := some (kmac256 (Config.kemDecaps o.dk ct) t2 32 "ZM1-VORLA-MAC"),
                   kData := some (kmac256 (Config.kemDecaps o.dk ct) t2 32 "ZM1-VORLA-DATA") }).replyFirst r []
      else u.authFail r)) ∧
  Claim.served .linkOffer 0x20
    (fun u r => r.box = 0 ∧ r.payload.length = 8 ∧ field r.payload 0 1 = 2 ∧ zeroBytes r.payload 1 3 = true ∧ zeroBytes r.payload 6 2 = true ∧
      u.trust.identity ≠ none ∧ u.ent.state = .run)
    (fun u r =>
      let d := u.drawFresh 136
      let kp := Config.kemKeyPair (d.1.take 64)
      let body := d.2.linkBody (field r.payload 4 2) 0 ((d.1.drop 64).take 32) kp.1
      let offer := body ++ d.2.trust.sign (digest256 body) (d.1.drop 96)
      ({ d.2 with trust := { d.2.trust with linkOffers := d.2.trust.linkOffers.set (field r.payload 4 2) (offer, kp.2) } } : State).reply r .ok offer) ∧
  (∀ (ok : Bool) (m : List Byte), Claim.served .linkAccept 0x20
    (fun u r => r.box = 0 ∧ field r.payload 0 1 = 3 ∧ zeroBytes r.payload 1 3 = true ∧ m = r.payload.drop 4 ∧ m.length = 7616 ∧ field m 9 1 = 0 ∧
      zeroBytes m 10 6 = true ∧ u.trust.identity ≠ none ∧ u.linkRoom (field m 0 2) = true ∧ u.ent.state = .run ∧ ok = u.linkVerify [] m)
    (fun u r =>
      let d := u.drawFresh 104
      let e := Config.kemEncaps ((m.drop 48).take 1568) (d.1.take 32)
      let body := d.2.linkBody (field m 0 2) 1 ((d.1.drop 32).take 32) e.1
      let accept := body ++ d.2.trust.sign (digest256 (m ++ body)) (d.1.drop 64)
      if ok = true then (d.2.recordLink (field m 0 2) e.2 m accept (field m 4 4)).reply r .ok accept else u.authFail r)) ∧
  (∀ (ok : Bool) (m : List Byte) (o : List Byte × List Byte), Claim.served .linkFinish 0x20
    (fun u r => r.box = 0 ∧ field r.payload 0 1 = 4 ∧ zeroBytes r.payload 1 3 = true ∧ m = r.payload.drop 4 ∧ m.length = 7616 ∧ field m 9 1 = 1 ∧
      zeroBytes m 10 6 = true ∧ u.trust.linkOffers.find (field m 0 2) = some o ∧ u.linkRoom (field m 0 2) = true ∧ ok = u.linkVerify o.1 m)
    (fun u r =>
      if ok = true then
        (({ u with trust := { u.trust with linkOffers := u.trust.linkOffers.erase (field m 0 2) } } : State).recordLink (field m 0 2)
          (Config.kemDecaps o.2 ((m.drop 48).take 1568)) o.1 m (field m 4 4)).reply r .ok []
      else u.authFail r)) ∧
  Claim.served .linkDrop 0x20
    (fun u r => r.box = 0 ∧ r.payload.length = 8 ∧ field r.payload 0 1 = 5 ∧ zeroBytes r.payload 1 3 = true ∧ zeroBytes r.payload 6 2 = true ∧
      u.trust.links.has (field r.payload 4 2) = true)
    (fun u r => (({ u with trust := { u.trust with links := u.trust.links.erase (field r.payload 4 2) } } : State).endPeerJobs
      (field r.payload 4 2)).reply r .ok []) ∧
  (∀ (s : State) (m : Nat), s.Calm → exec (.offerExpiry m) s = .next (s.updBox m fun b => { b with offer := none })) ∧
  (∀ (s : State) (peer epoch : Nat) (ss o a : List Byte), (s.recordLink peer ss o a epoch).trust.links.find peer =
    some { peer := peer, secret := kmac256 ss (digest256 (o ++ a)) 32 "ZM1-LINK", peerEpoch := BitVec.ofNat 32 epoch })

/-- R399-R406, R502: ATTEST answers a quote of the panel or of a partition, the certificate, or takes a life-cycle token, which moves the life cycle where it
is valid. The test port has BYPASS and IDCODE in every state and nothing else in FIELD and SCRAPPED; on a panel without partitions it provisions a BLANK
part while entropy flows, moves DEVELOPMENT to FIELD, and scraps in BLANK, DEVELOPMENT and RMA; in DEVELOPMENT and RMA it takes the ROT firmware. The key
of a release quote expires. -/
def Obligations.AttestationCompletes : Prop :=
  (∀ (scope p : Nat) (withKey : Bool), Claim.served .quoteBody 0x21
    (fun u r => r.payload.length = 36 ∧ field r.payload 0 1 = 0 ∧ field r.payload 1 1 = scope ∧ field r.payload 2 1 = p ∧
      field r.payload 3 1 = bnat withKey ∧ (r.box = 0 → (scope = 0 ∧ p = 0) ∨ (scope = 1 ∧ 1 ≤ p ∧ p ≤ 64)) ∧
      (r.box ≠ 0 → scope = 1 ∧ p = r.box) ∧ (withKey = true → scope = 1 ∧ u.releaseMode p = true) ∧
      (scope = 1 → u.part p ≠ none) ∧ u.trust.identity ≠ none ∧ u.ent.state = .run)
    (fun u r =>
      let d := u.drawFresh 104
      let nonce := (r.payload.drop 4).take 32
      let kp := Config.kemKeyPair (d.1.take 64)
      let ek := fitBytes 1568 kp.1
      let body := d.2.quoteBody scope p nonce (if withKey = true then digest256 ek else zeros32)
      ({ d.2 with trust := { d.2.trust with quoteNonce := some nonce,
                                            release := if withKey = true then d.2.trust.release.set p (kp.2, digest256 body) else d.2.trust.release } } :
        State).reply r .ok (body ++ d.2.trust.sign (digest256 body) (d.1.drop 64) ++ (if withKey = true then ek else [])))) ∧
  (∀ (scope p : Nat), Claim.served .certs 0x21
    (fun u r => r.payload.length = 36 ∧ field r.payload 0 1 = 1 ∧ field r.payload 1 1 = scope ∧ field r.payload 2 1 = p ∧
      field r.payload 3 1 = 0 ∧ (r.box = 0 → (scope = 0 ∧ p = 0) ∨ (scope = 1 ∧ 1 ≤ p ∧ p ≤ 64)) ∧
      (r.box ≠ 0 → scope = 1 ∧ p = r.box) ∧ (scope = 1 → u.part p ≠ none) ∧ u.trust.cert ≠ [])
    (fun u r => u.reply r .ok (fitBytes 4720 u.trust.cert))) ∧
  (∀ (ok : Bool) (tok : List Byte), Claim.served .lifecycle 0x21
    (fun u r => r.box = 0 ∧ 36 ≤ r.payload.length ∧ field r.payload 0 1 = 2 ∧ field r.payload 1 1 = 0 ∧ field r.payload 2 1 = 0 ∧ field r.payload 3 1 = 0 ∧
      tok = r.payload.drop 36 ∧ tok.length = 3173 ∧ zeroBytes tok 2 2 = true ∧ lifeStep (field tok 0 1) (field tok 1 1) true = true ∧ u.geom = [] ∧
      ok = u.tokenOk tok)
    (fun u r => if ok = true then (u.reply r .ok []).lifeMove (field tok 1 1) ((tok.drop 68).take 32)
      else if u.tokenSigned tok = true then u.reply r .auth [] else u.authFail r)) ∧
  (∀ (s : State), s.Calm →
    exec (.testAccessPort .bypass) s = .next s ∧
    exec (.testAccessPort .idcode) s = .next { s with readOut := 0xB4872A3D } ∧
    (∀ op : Jtag, s.lifeCycle = 2 ∨ s.lifeCycle = 4 → op ≠ .idcode → exec (.testAccessPort op) s = .next s) ∧
    (∀ image : List Byte, s.lifeCycle = 1 ∨ s.lifeCycle = 3 →
      exec (.testAccessPort (.firmware image)) s = .next { s with trust := { s.trust with rotFirmware := image.take 196608 } }) ∧
    (∀ cert : List Byte, s.lifeCycle = 0 → s.geom = [] → s.ent.state = .run →
      exec (.testAccessPort (.provision cert)) s = .next (finish s (s.provision cert))) ∧
    (∀ kd : List Byte, s.lifeCycle = 1 → s.geom = [] → exec (.testAccessPort (.toField kd)) s = .next (finish s (s.lifeMove 2 kd))) ∧
    (s.lifeCycle = 0 ∨ s.lifeCycle = 1 ∨ s.lifeCycle = 3 → s.geom = [] →
      exec (.testAccessPort .scrap) s = .next (finish s (s.lifeMove 4 [])))) ∧
  (∀ (s : State) (part : Nat), s.Calm →
    exec (.releaseKeyExpiry part) s = .next { s with trust := { s.trust with release := s.trust.release.erase part } })

/-- R416-R418: KEY_ROTATE puts a fresh key in the other generation's slot, batches of up to eight unlocked pages flip their generation, and the old slot is
destroyed at the end; a sweep fault ends it ST_DATA_LOSS. WEIGHT_BIND opens the wrap with the release key or the seal key and binds the weights, or
answers ST_AUTH. -/
def Obligations.KeyRotationCompletes : Prop :=
  (∀ x : Part, Claim.served .keyRotate 0x22
    (fun u r => r.payload.length = 8 ∧ zeroBytes r.payload 0 8 = true ∧ u.trust.rotations.has r.box = false ∧ u.ent.state = .run ∧
      u.part r.box = some x)
    (fun u r =>
      let k := u.drawKeyPair
      ({ k.2 with trust := { k.2.trust with
          memKeys := k.2.trust.memKeys.set (2 * (r.box - 1) + (1 - x.gen)) k.1,
          rotations := k.2.trust.rotations.set r.box ⟨r.tag, x.gen, x.mapped.filter fun v => decide (pteGen (x.pte v) = x.gen), 0⟩ } } :
        State).updPart r.box fun y => { y with gen := 1 - x.gen })) ∧
  (∀ (s : State) (part : Nat) (q : Rotation), s.trust.rotations.find part = some q → q.todo ≠ [] →
    (∀ (now : List Nat) (u : State), now = (q.todo.filter fun v => !((s.part part).any fun x => pteLock (x.pte v))).take 8 →
      u = now.foldl (fun s v => s.sweepPage part v) s → exec (.sweepBatch part true) s = .next (finish s
      { u with trust := { u.trust with
        rotations := u.trust.rotations.set part { q with todo := q.todo.filter fun v => !(now.contains v), swept := q.swept + now.length } } })) ∧
    exec (.sweepBatch part false) s = .next (finish s
      ((({ s with trust := { s.trust with rotations := s.trust.rotations.erase part } } : State).raise
        { det := 0x0D07, loc := { die := 0x40 }, part := part }).rotationReply part q .dataLoss))) ∧
  (∀ (s : State) (part : Nat) (q : Rotation), s.trust.rotations.find part = some q → q.todo = [] → s.flights part q.oldGen = 0 →
    exec (.rotationDone part) s = .next (finish s
      (({ s with trust := { s.trust with rotations := s.trust.rotations.erase part,
                                         memKeys := s.trust.memKeys.erase (2 * (part - 1) + q.oldGen) } } : State).rotationReply part q .ok))) ∧
  (∀ (x : Part) (g : Program) (blk : List Byte) (k : List Byte × List Byte) (wk : Option (List Byte)) (src n dst : Nat),
    Claim.served .weightBind 0x23
      (fun u r => u.part r.box = some x ∧ x.run = none ∧ x.program = some g ∧ src = field r.payload 16 8 ∧ n = field r.payload 24 8 ∧
        dst = field r.payload 32 8 ∧ n % 65536 = 0 ∧ blk = r.payload.drop 40 ∧
        rangesMeet src n dst (n / 65536 * 65520) = false ∧ x.rangeMapped src n = true ∧ x.rangeMapped dst (n / 65536 * 65520) = true ∧
        bit x.flags 1 = true ∧ blk.length = 1616 ∧ u.trust.release.find r.box = some k ∧
        wk = unwrapKey (Config.kemDecaps k.1 (blk.take 1568)) (r.payload.take 16) k.2 (blk.drop 1568))
      (fun u r =>
        let v : State := { u with trust := { u.trust with release := u.trust.release.erase r.box } }
        wk.elim (v.wrapFail r) fun w => v.bindWeights r x g w (r.payload.take 16) src n dst) ∧
    Claim.served .weightBind 0x23
      (fun u r => u.part r.box = some x ∧ x.run = none ∧ x.program = some g ∧ src = field r.payload 16 8 ∧ n = field r.payload 24 8 ∧
        dst = field r.payload 32 8 ∧ n % 65536 = 0 ∧ blk = r.payload.drop 40 ∧
        rangesMeet src n dst (n / 65536 * 65520) = false ∧ x.rangeMapped src n = true ∧ x.rangeMapped dst (n / 65536 * 65520) = true ∧
        bit x.flags 1 = false ∧ blk.length = 1680 ∧ u.trust.sealKey = some k ∧ blk.take 32 = digest256 (fitBytes 1568 k.1) ∧
        (blk.drop 32).take 32 = g.family ∧ wk = unwrapKey (Config.kemDecaps k.2 ((blk.drop 64).take 1568)) (r.payload.take 16) g.family (blk.drop 1632))
      (fun u r => wk.elim (u.wrapFail r) fun w => u.bindWeights r x g w (r.payload.take 16) src n dst))

/-- R28, R29, R196, R235, R333, R334: a PART_CREATE that is permitted builds the partition: its rectangle joins the others, its pages and first-touch reserve
are mapped from free frames, its page tables take frames of their own, its tiles are at their reset values. -/
def Obligations.PartCreateCompletes : Prop :=
  ∀ (s : State) (f : VFrame) (c : CreateReq) (fs gs : List Nat) (u v w : State), s.Calm → s.Serves 0x30 f → u = s.taken 0x30 f →
    c = CreateReq.of f.payload → c.wellFormed f.payload s.fuses.rows = true → u.createRefused c = false → s.geom.length < 64 →
    u.ent.state = .run → State.takeFrames (bit c.flags 0) c.rect.part (c.pages + c.touch) 0 u = some (fs, v) →
    State.takeFrames false 0 (tableFrames c.vaLimit) 0 v = some (gs, w) →
    ∃ (t : State) (x : Part), exec (.partCreate f) s = .next t ∧ t.geom = s.geom ++ [c.rect] ∧ t.part c.rect.part = some x ∧
      x.flags = c.flags ∧ x.share = c.share ∧ x.vaLimit = c.vaLimit ∧ x.ptes = firstPtes (bit c.flags 0) (fs.take c.pages) ∧
      x.tables = gs ∧ x.level1 = firstLevel1 c.vaLimit gs ∧ x.reserve = fs.drop c.pages ∧ x.touch = decide (0 < c.touch) ∧ x.run = none ∧ x.program = none ∧ x.gen = 0 ∧
      (∀ p, p ≠ c.rect.part → t.part p = s.part p) ∧ t.tiles = c.rect.tiles.foldl (fun t i => t.erase i) s.tiles ∧
      t.err = s.err ∧ t.power = s.power ∧ t.firm = s.firm ∧ t.fuses = s.fuses ∧ t.pending = s.pending

/-- R277, R335, R336, R363, R364: PART_DESTROY ends the partition's jobs, pairing, streams, rotation and tests and wipes it; PART_QUERY answers the
partition's record, or on the admin mailbox the whole panel; TRACE_SET asks for a level; LOCKSTEP_PAIR pairs and unpairs a partition without a running
job. -/
def Obligations.PartitionRequestsComplete : Prop :=
  (∀ (s : State) (f : VFrame) (p : Nat) (u v : State) (r : Req), s.Serves 0x31 f → r = f.request 0x31 → f.payload.length = 1 →
    field f.payload 0 1 = p → 1 ≤ p → p ≤ 64 → u = s.taken 0x31 f → u.parts.has p = true →
    v = (((((((u.endJob p .aborted).endAll p).unpair p).abortStream p).abortRotation p).endDeferred p).wipePart p).shaped u.fuses
      (u.geom.filter fun q => decide (q.part ≠ p)) →
    exec (.partDestroy f) s = .next (finishGeom s ((v.updBox p Mailbox.close).reply r .ok []))) ∧
  (∀ (s : State) (p : Nat), (s.wipePart p).part p = none ∧ ∀ i ∈ s.tilesOf p, s.part p ≠ none → (s.wipePart p).tile i = TileState.blank) ∧
  (∀ q : Rect, Claim.served .partQuery 0x32
    (fun u r => r.payload = [] ∧ r.box ≠ 0 ∧ u.rect r.box = some q)
    (fun u r => u.reply r .ok (u.partInfo q))) ∧
  Claim.served .partQuery 0x32
    (fun _ r => r.payload = [] ∧ r.box = 0)
    (fun u r => u.reply r .ok ((u.geom.flatMap u.partInfo) ++
      ((List.range 24).flatMap fun d => (List.range 12).map fun c => BitVec.ofNat 8 (u.spares d c)) ++
      bitMap 32 (fun i => decide (i < 12 * ((u.fuses.rows + 3) / 4)) && u.quadShut i) ++ bitMap 64 (fun n => decide (n < 464) && u.linkDown n) ++
      (List.range 6).map fun g => BitVec.ofNat 8 (u.groupState g))) ∧
  Claim.served .traceSet 0x61
    (fun _ r => r.payload.length = 8 ∧ field r.payload 0 1 ≤ 2 ∧ zeroBytes r.payload 1 3 = true)
    (fun u r => (u.updPart r.box fun x => { x with nextLevel := some (field r.payload 0 1, field r.payload 4 4) }).reply r .ok []) ∧
  (∀ x : Part, Claim.served .lockstepPair 0x73
    (fun u r => u.part r.box = some x ∧ r.payload.length = 16 ∧ field r.payload 0 1 = r.box ∧ field r.payload 9 1 = 0 ∧
      zeroBytes r.payload 12 4 = true ∧ 1 ≤ field r.payload 1 1 ∧ field r.payload 1 1 ≤ 64 ∧
      (field r.payload 2 2 = u.panel → field r.payload 1 1 ≠ field r.payload 0 1) ∧ 1 ≤ field r.payload 8 1 ∧ field r.payload 8 1 ≤ 16 ∧
      field r.payload 10 2 ≠ 0 ∧ x.run = none ∧ x.pairing = none ∧ u.trib.lost.contains (field r.payload 2 2) = false)
    (fun u r =>
      let k : Pairing := { peerPanel := field r.payload 2 2, peerPart := field r.payload 1 1, pairId := BitVec.ofNat 32 (field r.payload 4 4),
                           lag := field r.payload 8 1, timeout := field r.payload 10 2 }
      (u.updPart r.box fun x => { x with pairing := some k }).reply r .ok [])) ∧
  (∀ x : Part, Claim.served .unpair 0x73
    (fun u r => u.part r.box = some x ∧ r.payload.length = 16 ∧ field r.payload 0 1 = r.box ∧ field r.payload 9 1 = 1 ∧
      zeroBytes r.payload 1 8 = true ∧ zeroBytes r.payload 10 2 = true ∧ zeroBytes r.payload 12 4 = true ∧ x.run = none)
    (fun u r => (u.unpair r.box).reply r .ok []))

/-- R337-R343, R346, R347, R360: a JOB_SUBMIT in one frame that R338 accepts is journaled and answered JOB_ACCEPTED, with its own seed or one drawn from
Headwater; the first frame of several is kept; the next job starts when the
partition may and its image is the one loaded; it ends when every tile has finished; JOB_CANCEL ends a queued job at once and stops a running one; PREEMPT and RESUME hold and release
the partition; AT_REST brings it to rest; JOURNAL_QUERY lists the journal. -/
def Obligations.JobsComplete : Prop :=
  (∀ (x : Part) (g : Program) (j : Submit) (q : Rect), Claim.served .jobSubmit 0x40
    (fun u r => bit r.flags 5 = false ∧ (u.box r.box).partials = [] ∧ r.payload.length ≤ 4096 + 131072 ∧ u.part r.box = some x ∧
      u.rect r.box = some q ∧ j = Submit.of r.payload u.panel ∧ u.journal.duplicate r.box (field r.payload 0 8) = none ∧
      j.bad r.payload u.panel = false ∧ u.submitRefused r.box x j = false ∧ x.program = some g ∧ g.chainMismatch (bit j.flags 1) = false ∧
      (bit j.flags 4 = true → (u.box r.box).agreed.getLsbD 19 = true) ∧
      (u.journal.jobs.filter fun e => decide (e.part = r.box)).length < 64 ∧ u.journal.nextId.toNat < 0xFFFFFFFE ∧
      (bit j.flags 0 = true → u.ent.state = .run))
    (fun u r =>
      let w := u.updBox r.box fun b => { b with partials := [] }
      let d := if bit j.flags 0 = true then w.drawPlain 16 else ([], w)
      let v := d.2
      let seed := if bit j.flags 0 = true then beNat d.1 else j.seed
      let e : Job := { id := u.journal.nextId, part := r.box, state := 0, flags := j.flags, key := j.key, start := BitVec.ofNat 64 j.start,
                       stop := BitVec.ofNat 64 j.stop, seed := seed, image := j.image, inPlace := j.inPlace, panels := j.panels,
                       mpj := BitVec.ofNat 32 j.mpj, panelList := j.list, rect := q, pflags := x.flags, share := x.share }
      ({ v with journal := { v.journal with jobs := v.journal.jobs ++ [e], nextId := u.journal.nextId + 1 } } : State).reply { r with opcode := 0x41 } .ok
        (acceptedBody u.journal.nextId false seed))) ∧
  Claim.served .jobSubmit 0x40
    (fun u r => bit r.flags 5 = true ∧ (u.box r.box).partials = [])
    (fun u r => u.updBox r.box fun b => { b with partials := [⟨r.tag, 0x40, r.payload⟩] }) ∧
  (∀ (s : State) (p : Nat) (x : Part) (g : Program) (j : Job) (r : RunJob), s.part p = some x → s.mayStart p x = true →
    s.nextJob p x = some (j, r) → x.program = some g → fitBytes 32 g.digest = fitBytes 32 j.image →
    exec (.jobStart p) s = .next (finish s (s.beginJob p x g j r))) ∧
  (∀ (s : State) (p : Nat) (x : Part) (r : RunJob), s.part p = some x → x.run = some r → x.dispatching = true →
    (∀ t ∈ s.tilesOf p, (s.tile t).finished = true) →
    exec (.jobDone p) s =
      .next (finish s (s.endJob p (if r.peerLost = true then .peerLost else if r.shapeChanged = true then .shapeChanged else .ok)))) ∧
  (∀ (x : Part) (j : Job), Claim.served .jobCancel 0x43
    (fun u r => r.payload.length = 4 ∧ u.part r.box = some x ∧ u.journal.find (BitVec.ofNat 32 (field r.payload 0 4)) = some j ∧ j.part = r.box ∧
      (j.state = 0 ∨ j.state = 3))
    (fun u r => ((u.endQueued j .aborted).clearAwait r.box).reply r .ok [])) ∧
  (∀ (x : Part) (j : Job), Claim.served .jobCancel 0x43
    (fun u r => r.payload.length = 4 ∧ u.part r.box = some x ∧ u.journal.find (BitVec.ofNat 32 (field r.payload 0 4)) = some j ∧ j.part = r.box ∧
      j.state = 1 ∧ x.run ≠ none ∧ x.hold = .free)
    (fun u r => u.updPart r.box fun x => { x with cancelTag := some r.tag, hold := .stopping r.tag 5 false })) ∧
  (∀ x : Part, Claim.served .preempt 0x52
    (fun u r => r.payload = [] ∧ u.part r.box = some x ∧ u.inProgress r.box x = false ∧ x.run ≠ none ∧ x.hold = .free)
    (fun u r => (u.updPart r.box fun x => { x with hold := .stopping r.tag 0 false }).tellPeer r.box 3)) ∧
  (∀ x : Part, Claim.served .preempt 0x52
    (fun u r => r.payload = [] ∧ u.part r.box = some x ∧ u.inProgress r.box x = false ∧ x.hold = .rest)
    (fun u r => u.reply r .ok [])) ∧
  (∀ x : Part, Claim.served .preempt 0x52
    (fun u r => r.payload = [] ∧ u.part r.box = some x ∧ u.inProgress r.box x = false ∧ x.hold ≠ .rest ∧ x.run = none)
    (fun u r => ((u.updPart r.box fun x => { x with hold := .rest }).tellPeer r.box 3).reply r .ok [])) ∧
  (∀ (s : State) (p : Nat) (x : Part) (tag : BitVec 32) (why : Nat) (pages : Bool), s.part p = some x → x.hold = .stopping tag why pages →
    s.restReady p why = true →
    exec (.atRest p) s = .next (finish s ((if why = 3 then s else s.restTiles p).finishRest p tag why pages))) ∧
  (∀ x : Part, Claim.served .resumePart 0x53
    (fun u r => r.payload = [] ∧ u.part r.box = some x ∧ u.inProgress r.box x = false ∧ x.hold = .rest)
    (fun u r =>
      let v := if x.run = none then u else u.updTiles (u.tilesOf r.box) TileState.resumed
      ((v.updPart r.box fun x => { x with hold := if v.atStop r.box = true then .stopping 0 6 false else .free }).tellPeer r.box 4).reply r .ok [])) ∧
  Claim.served .journalQuery 0x82
    (fun _ r => r.payload.length = 1 ∧ field r.payload 0 1 ≤ 64 ∧ (r.box ≠ 0 → field r.payload 0 1 = r.box))
    (fun w r =>
      let u := w.journalRead
      let es := u.journal.jobs.filter fun e => decide (field r.payload 0 1 = 0 ∨ e.part = field r.payload 0 1)
      u.replyStream r .ok false 0 (beBytes 4 es.length ++ es.flatMap fun e =>
        beBytes 4 e.id.toNat ++ beBytes 1 e.part ++ beBytes 1 e.state ++ beBytes 1 e.flags ++ [0] ++ beBytes 8 e.key))

/-- R255, R257, R348-R350: CKPT_SAVE streams the context of a partition at rest, stops a running one first, and sends a PORTABLE context at a
boundary; CKPT_RESTORE keeps the data of its frames, and its last one decides and applies the whole stream. -/
def Obligations.CheckpointsComplete : Prop :=
  (∀ x : Part, Claim.served .ckptSave 0x50
    (fun u r => r.payload.length = 2 ∧ field r.payload 0 1 = 0 ∧ field r.payload 1 1 ≤ 1 ∧ u.part r.box = some x ∧ x.sealed_ = none ∧
      u.inProgress r.box x = false ∧ x.run ≠ none ∧ x.hold = .free)
    (fun u r => (u.updPart r.box fun x => { x with hold := .stopping r.tag 1 (bit (field r.payload 1 1) 0) }).tellPeer r.box 3)) ∧
  (∀ x : Part, Claim.served .ckptSave 0x50
    (fun u r => r.payload.length = 2 ∧ field r.payload 0 1 = 0 ∧ field r.payload 1 1 ≤ 1 ∧ u.part r.box = some x ∧ x.sealed_ = none ∧
      u.inProgress r.box x = false ∧ (x.run = none ∨ x.hold = .rest) ∧ x.image = none)
    (fun u r =>
      let v := u.updPart r.box fun x => { x with hold := .rest }
      (if x.hold = .rest then v else v.tellPeer r.box 3).sendSave r (field r.payload 1 1) (u.image r.box 0))) ∧
  (∀ x : Part, Claim.served .ckptSave 0x50
    (fun u r => r.payload.length = 2 ∧ field r.payload 0 1 = 1 ∧ field r.payload 1 1 ≤ 1 ∧ u.part r.box = some x ∧ x.sealed_ = none ∧
      u.inProgress r.box x = false ∧ x.portable = true ∧ x.run ≠ none ∧ x.hold = .free)
    (fun u r => u.updPart r.box fun x => { x with hold := .stopping r.tag 2 (bit (field r.payload 1 1) 0) })) ∧
  (∀ (x : Part) (d : List Byte), Claim.served .ckptRestore 0x51
    (fun u r => u.part r.box = some x ∧ (u.box r.box).partials = [] ∧ u.inProgress r.box x = false ∧ (x.run = none ∨ x.hold = .rest) ∧
      u.restoreData r true = some d)
    (fun u r =>
      let v := u.gather r d
      v.1.elim v.2 fun b => v.2.restoreAll r b)) ∧
  (∀ (s : State) (r : Req) (x : Part) (b : List Byte) (v : Restore) (force : Bool) (st : Status), s.part r.box = some x → field b 0 1 = bnat force →
    readStream (b.drop 1) = some v → st = s.restoreStatus r.box x v force →
    s.restoreAll r b =
      if (b.drop 1).drop ((b.drop 1).length - 16) = s.ckptSeal r.box ((b.drop 1).take ((b.drop 1).length - 16)) then
        (if st = .ok ∨ st = .shapeChanged then
          (if s.sectionsOk r.box v = true then (s.restoreApply r.box v st force).reply r st [] else s.reply r .badFormat [])
        else s.reply r st [])
      else s.reply r .auth [])

/-- R480, R489-R492: ERR_READ returns records and consumes what its FLAGS ask, or an instance's counts; INJECT arms a detector once or a number of times and
disarms it; an armed point makes its detector act once less; SELFTEST tests what is not intrusive at once and defers the rest, whose parts are tested at their
partitions' job boundaries. -/
def Obligations.ErrorRequestsComplete : Prop :=
  (∀ (rs : List ErrRec) (next : BitVec 32) (u' v : State), Claim.served .errRecords 0x62
    (fun u r => r.payload.length = 16 ∧ field r.payload 0 1 = 0 ∧ field r.payload 1 1 < 4 ∧ 1 ≤ field r.payload 2 2 ∧ field r.payload 2 2 ≤ 120 ∧
      field r.payload 13 1 = 0 ∧ (r.box ≠ 0 → field r.payload 1 1 = 0) ∧
      rs = u.err.wanted r.box (BitVec.ofNat 32 (field r.payload 4 4)) (field r.payload 2 2) ∧
      next = (rs.getLast?.map fun x => x.seq + 1).getD u.err.nextSeq ∧
      u' = u.reply r .ok (beBytes 4 next.toNat ++ beBytes 8 u.err.spillway.toNat ++ beBytes 2 rs.length ++ List.replicate 6 0 ++ rs.flatMap ErrRec.bytes) ∧
      v = (if bit (field r.payload 1 1) 1 = true then
        { u' with err := { u'.err with spillDetail := 0, fullEpisodes := 0, resetDiscard := false } } else u'))
    (fun _ r =>
      if bit (field r.payload 1 1) 0 = true then
        State.writeHeld false (v.err.insts.length + v.err.waiting.length + 1)
          { v with err := { v.err with ring := v.err.ring.filter (fun x => !((rs.map (·.seq)).contains x.seq)) } }
      else v)) ∧
  (∀ (det : Nat) (l : Loc), Claim.served .instanceRecord 0x62
    (fun u r => r.payload.length = 16 ∧ field r.payload 0 1 = 1 ∧ field r.payload 1 1 < 4 ∧ field r.payload 2 2 = 0 ∧
      field r.payload 13 1 = 0 ∧ (r.box ≠ 0 → field r.payload 1 1 = 0) ∧ det = field r.payload 8 2 ∧ l = locField r.payload 10 14 ∧
      detKnown det = true ∧ u.locOk det l = true)
    (fun u r => u.reply r .ok (beBytes 8 (u.err.inst det l).total.toNat ++ beBytes 8 (u.err.inst det l).held ++
      beBytes 2 (sat 16 (u.err.inst det l).level) ++ beBytes 2 (((detThreshold det).map (·.1)).getD 0) ++ beBytes 1 (u.err.inst det l).sev ++
      beBytes 1 (bnat (u.err.inst det l).inexact) ++ [0, 0]))) ∧
  (∀ (det n period : Nat) (l : Loc) (locs : List Loc) (j : Injection),
    (∀ once : Bool, Claim.served (if once then .onceInject else .countInject) 0x63
      (fun u r => r.payload.length = 24 ∧ field r.payload 2 1 = (if once then 0 else 1) ∧ field r.payload 3 1 < 8 ∧ field r.payload 7 1 = 0 ∧
        field r.payload 10 2 = 0 ∧ field r.payload 20 4 = 0 ∧ n = field r.payload 12 4 ∧ period = field r.payload 16 4 ∧ det = field r.payload 0 2 ∧
        l = locField r.payload 4 8 ∧ bit (field r.payload 3 1) 1 = false ∧ detKnown det = true ∧ u.locOk det l = true ∧
        (once = true → n = 0 ∧ period = 0) ∧ (once = false → n ≠ 0 ∧ period ≠ 0) ∧ u.err.injections.length < 16 ∧ u.lifeCycle ≠ 4 ∧
        (detResets det = true → bit (field r.payload 3 1) 2 = true) ∧
        j = { id := u.err.nextInj, det := det, locs := [l], noRepair := bit (field r.payload 3 1) 0, left := [if once then 1 else n],
              period := period })
      (fun u r => ({ u with err := { u.err with injections := u.err.injections ++ [j], nextInj := u.err.nextInj + 1 } } : State).reply r .ok
        (beBytes 4 j.id.toNat ++ beBytes 4 1))) ∧
    Claim.served .onceInject 0x63
      (fun u r => r.payload.length = 24 ∧ field r.payload 2 1 = 0 ∧ field r.payload 3 1 < 8 ∧ field r.payload 7 1 = 0 ∧
        field r.payload 10 2 = 0 ∧ field r.payload 20 4 = 0 ∧ field r.payload 12 4 = 0 ∧ field r.payload 16 4 = 0 ∧ det = field r.payload 0 2 ∧
        l = locField r.payload 4 8 ∧ bit (field r.payload 3 1) 1 = true ∧ detKnown det = true ∧ u.fuses.hasDie l.die = true ∧
        (detOnTile det = true → l.die < 24) ∧ u.err.injections.length < 16 ∧ u.lifeCycle ≠ 4 ∧
        (detResets det = true → bit (field r.payload 3 1) 2 = true) ∧ locs = u.dieWide det l ∧ locs ≠ [] ∧
        j = { id := u.err.nextInj, det := det, locs := locs, noRepair := bit (field r.payload 3 1) 0, left := locs.map fun _ => 1, period := 0 })
      (fun u r => ({ u with err := { u.err with injections := u.err.injections ++ [j], nextInj := u.err.nextInj + 1 } } : State).reply r .ok
        (beBytes 4 j.id.toNat ++ beBytes 4 locs.length)) ∧
    Claim.served .stopInject 0x63
      (fun u r => r.payload.length = 24 ∧ field r.payload 2 1 = 2 ∧ field r.payload 3 1 < 8 ∧ field r.payload 7 1 = 0 ∧
        field r.payload 10 2 = 0 ∧ field r.payload 20 4 = 0 ∧ u.err.injections.find? (fun q => decide (q.id.toNat = field r.payload 12 4)) = some j)
      (fun u r => ({ u with err := { u.err with injections := u.err.injections.erase j } } : State).reply r .ok
        (beBytes 4 j.id.toNat ++ beBytes 4 j.locs.length))) ∧
  (∀ (s u v : State) (inj : BitVec 32) (index : Nat) (syn : List Byte) (j : Injection) (l : Loc), s.err.injections.find? (fun q => decide (q.id = inj)) = some j →
    j.locs[index]? = some l → j.left.getD index 0 ≠ 0 →
    u = { s with err := { s.err with injecting := some j.noRepair, injections :=
      (s.err.injections.map (fun (q : Injection) => if q.id = inj then { j with left := countDown index j.left } else q)).filter (fun q =>
        q.left.any fun n => decide (n ≠ 0)) } } → v = u.detectorActs j.det l syn →
    exec (.injectedEvent inj index syn) s = .next (finish s { v with err := { v.err with injecting := none } })) ∧
  (∀ failed : List Nat, Claim.served (fun f => .selftest f failed) 0x71
    (fun u r => r.payload.length = 4 ∧ 1 ≤ field r.payload 0 1 ∧ field r.payload 0 1 ≤ 16 ∧ u.scopeOk (field r.payload 1 1) (field r.payload 2 2) = true)
    (fun u r =>
      let what := field r.payload 0 1
      let us := u.testUnits what (field r.payload 1 1) (field r.payload 2 2)
      let bad := us.filter failed.contains
      if testIntrusive what = true then
        let d := u.deferTest what (field r.payload 1 1) (field r.payload 2 2) failed
        (d.2.reply r .deferred (beBytes 4 d.1.toNat ++ List.replicate 8 0)).reportFree d.1
      else
        let v : State := { u with err := { u.err with nextTest := u.err.nextTest + 1 } }
        (if what = 8 then v.testHeadwater failed else v.failUnits what bad).reply r .ok
          (beBytes 4 u.err.nextTest.toNat ++ beBytes 4 (us.length - bad.length) ++ beBytes 4 bad.length))) ∧
  (∀ (s : State) (test : BitVec 32) (part : Nat) (failed us bad : List Nat) (d d' : Deferred), s.err.deferred.find? (fun d => decide (d.id = test)) = some d →
    d.parts.contains part = true → s.atBoundary part = true → s.power.emergency = false →
    us = (s.testUnits d.what d.scopeKind d.scopeId).filter (fun u => decide ((s.unitParts d.what u).head? = some part)) →
    bad = us.filter failed.contains →
    d' = { d with parts := d.parts.erase part, passed := d.passed + (us.length - bad.length), failed := d.failed + bad.length } →
    exec (.intrusivePart test part failed) s = .next (finish s
      ((({ s with err := { s.err with deferred := (s.err.deferred.map (fun (q : Deferred) => if q.id = test then d' else q)).filter (fun q => !q.parts.isEmpty) } } :
        State).failUnits d.what bad).testDone d' part .ok)))

/-- R366, R464-R468: CALIBRATE. AGE_SCAN answers SLOW of the dies in scope; REPLAN writes a due plan; POWER_BUDGET, THROTTLE_TARGET and IDLE_POLICY take
values in their ranges; PHY_RETRAIN of a die is deferred; PORT_CONFIG sets the panel's numbers or a port's registers while no connection is open. -/
def Obligations.CalibrationsComplete : Prop :=
  (∀ kind id : Nat, Claim.served .ageScan 0x72
    (fun u r => r.payload.length = 16 ∧ field r.payload 0 1 = 1 ∧ field r.payload 1 1 = kind ∧ field r.payload 2 2 = id ∧ (kind = 0 ∨ kind = 2) ∧
      u.scopeOk kind id = true ∧ zeroBytes r.payload 4 12 = true)
    (fun u r => u.reply r .ok (beBytes 4 0 ++ u.slowList kind id))) ∧
  (∀ v : State, Claim.served .replan 0x72
    (fun u r => r.payload.length = 16 ∧ field r.payload 0 1 = 2 ∧ field r.payload 1 1 = 0 ∧ field r.payload 2 2 = 0 ∧ zeroBytes r.payload 4 12 = true ∧
      v = u.scanAll ∧ v.bankWorn v.nextBank = false ∧ v.planDue = true)
    (fun _ r => (v.writePlan true).reply r .ok (beBytes 4 0 ++ beBytes 4 ((v.writePlan true).planNo v.nextBank) ++
      beBytes 1 (if v.nextBank = 256 then 0 else 1) ++ [0, 0, 0] ++ (v.writePlan true).slowList 0 0))) ∧
  Claim.served .powerBudget 0x72
    (fun u r => r.payload.length = 16 ∧ field r.payload 0 1 = 3 ∧ (field r.payload 1 1 = 0 ∨ field r.payload 1 1 = 2) ∧
      u.scopeOk (field r.payload 1 1) (field r.payload 2 2) = true ∧ 30 ≤ field r.payload 4 2 ∧ field r.payload 4 2 ≤ 145 ∧
      zeroBytes r.payload 6 10 = true)
    (fun u r => ({ u with power := { u.power with budget := BitVec.ofNat 16 (field r.payload 4 2) } } : State).reply r .ok (beBytes 4 0)) ∧
  Claim.served .throttleTarget 0x72
    (fun u r => r.payload.length = 16 ∧ field r.payload 0 1 = 4 ∧ (field r.payload 1 1 = 0 ∨ field r.payload 1 1 = 2) ∧
      u.scopeOk (field r.payload 1 1) (field r.payload 2 2) = true ∧ 70 ≤ field r.payload 4 1 ∧ field r.payload 4 1 ≤ 100 ∧
      zeroBytes r.payload 5 11 = true)
    (fun u r => ({ u with power := { u.power with throttle := BitVec.ofNat 8 (field r.payload 4 1) } } : State).reply r .ok (beBytes 4 0)) ∧
  Claim.served .idlePolicy 0x72
    (fun u r => r.payload.length = 16 ∧ field r.payload 0 1 = 5 ∧ (field r.payload 1 1 = 0 ∨ field r.payload 1 1 = 2) ∧
      u.scopeOk (field r.payload 1 1) (field r.payload 2 2) = true ∧ (field r.payload 4 4 = 0 ∨ 100 ≤ field r.payload 4 4) ∧
      field r.payload 4 4 ≤ 3600000 ∧ 100 ≤ field r.payload 8 2 ∧ zeroBytes r.payload 10 6 = true)
    (fun u r => ({ u with power := { u.power with deepAfter := BitVec.ofNat 32 (field r.payload 4 4), pllSleep := BitVec.ofNat 16 (field r.payload 8 2) } } :
      State).reply r .ok (beBytes 4 0)) ∧
  Claim.served .phyRetrain 0x72
    (fun _ r => r.payload.length = 16 ∧ field r.payload 0 1 = 6 ∧ field r.payload 1 1 = 2 ∧ field r.payload 2 2 < 24 ∧ zeroBytes r.payload 4 12 = true)
    (fun u r =>
      let d := u.deferTest 0x106 2 (field r.payload 2 2) []
      (d.2.reply r .deferred (beBytes 4 d.1.toNat)).reportFree d.1) ∧
  Claim.served .portConfig 0x72
    (fun u r => r.payload.length = 37 ∧ field r.payload 0 1 = 0x80 ∧ field r.payload 1 1 = 0xFF ∧ field r.payload 2 3 = 0 ∧ field r.payload 7 2 = 0 ∧
      field r.payload 27 2 = 0 ∧ u.portOpen none = false ∧ (∀ n ∈ [32, 33, 34], (u.preg n).worn = false))
    (fun u r =>
      let v := ((u.pregWriteWatched 32 (BitVec.ofNat 64 (2 ^ 63 + field r.payload 5 2))).pregWriteWatched 33
        (BitVec.ofNat 64 (field r.payload 9 8))).pregWriteWatched 34 (BitVec.ofNat 64 (field r.payload 17 4 * 2 ^ 32))
      ({ v with panelNo := some (BitVec.ofNat 16 (field r.payload 5 2)) } : State).reply r .ok (beBytes 4 0)) ∧
  (∀ id n : Nat, Claim.served .portConfig 0x72
    (fun u r => r.payload.length = 37 ∧ field r.payload 0 1 = 0x80 ∧ field r.payload 1 1 = id ∧ id ≠ 0xFF ∧ field r.payload 2 3 = 0 ∧
      field r.payload 7 2 = 0 ∧ field r.payload 27 2 = 0 ∧ u.fuses.hasPort id = true ∧ tribCfgOk (field r.payload 29 8) = true ∧
      u.portOpen (some id) = false ∧ n = 40 + 2 * portIx id ∧ (u.preg n).worn = false ∧ (u.preg (n + 1)).worn = false)
    (fun u r =>
      let v := (u.pregWriteWatched n (BitVec.ofNat 64 (field r.payload 29 8))).pregWriteWatched (n + 1) (BitVec.ofNat 64 (field r.payload 21 6))
      let p : TPort := { v.trib.ports.getD id {} with cfg := BitVec.ofNat 64 (field r.payload 29 8), gateway := BitVec.ofNat 48 (field r.payload 21 6) }
      ({ v with trib := { v.trib with ports := v.trib.ports.set id p } } : State).reply r .ok (beBytes 4 0)))

/-- R427-R443: ENTROPY_GET answers expander output, or raw conditioned blocks, while output flows, waits otherwise, and times out; a failing pair, sentinel
or known-answer test disables its unit and stops the source or not; a startup test seeds the expander of a source with enough units; a reseed counts and
serves what waits; masking takes 32 bytes. -/
def Obligations.EntropyCompletes : Prop :=
  (∀ d : List Byte × EntropyState, Claim.served .entropyGet 0x70
    (fun u r => r.payload.length = 8 ∧ 1 ≤ field r.payload 0 2 ∧ field r.payload 0 2 ≤ 4096 ∧ field r.payload 2 1 ≤ 1 ∧ zeroBytes r.payload 3 5 = true ∧
      (field r.payload 2 1 = 1 → field r.payload 0 2 ≤ 256) ∧ u.ent.state = .run ∧
      d = (if field r.payload 2 1 = 1 then EntropyState.blocks ((field r.payload 0 2 + 31) / 32) u.ent else u.ent.output (field r.payload 0 2)))
    (fun u r => ({ u with ent := d.2 } : State).entropyReply r .ok (d.1.take (field r.payload 0 2)))) ∧
  Claim.served .entropyGet 0x70
    (fun u r => r.payload.length = 8 ∧ 1 ≤ field r.payload 0 2 ∧ field r.payload 0 2 ≤ 4096 ∧ field r.payload 2 1 = 0 ∧ zeroBytes r.payload 3 5 = true ∧
      u.ent.state ≠ .run ∧ u.ent.state ≠ .failed)
    (fun u r => { u with ent := { u.ent with waiters := u.ent.waiters ++ [r.waiter] } }) ∧
  (∀ (s u : State) (m : Nat) (w : Waiter), s.ent.waiters.find? (fun w => decide (w.opcode = 0x70 ∧ w.box = m)) = some w →
    u = { s with ent := { s.ent with waiters := s.ent.waiters.erase w } } →
    exec (.entropyGetTimeout m) s = .next (finish s (u.entropyReply w.req (if s.ent.state = .failed then .entropyFail else .notReady) []))) ∧
  (∀ (s u : State) (pair : Nat) (apt : Bool), s.ent.state = .run → pair < 16 → s.ent.pairEn.getLsbD pair = true →
    u = { s with ent := { s.ent with
      pairEn := s.ent.pairEn &&& ~~~ (BitVec.ofNat 16 (2 ^ pair)), pairFail := s.ent.pairFail ||| BitVec.ofNat 16 (2 ^ pair),
      lastTest := BitVec.ofNat 3 (if apt then 2 else 1), lastUnit := BitVec.ofNat 5 pair } } →
    exec (if apt then .hwApt pair else .hwRct pair) s = .next (finish s
      (((u.raise { det := if apt then 0x0802 else 0x0801, loc := pairLoc pair, units := some u.bootEpoch }).hwFail false).failWaiters))) ∧
  (∀ (s u : State) (die : Nat) (apt : Bool), s.ent.state = .run → die < 24 → s.ent.sentEn.getLsbD die = true →
    u = { s with ent := { s.ent with
      sentEn := s.ent.sentEn &&& ~~~ (BitVec.ofNat 24 (2 ^ die)), sentFail := s.ent.sentFail ||| BitVec.ofNat 24 (2 ^ die),
      lastTest := if apt then 2 else 1, lastUnit := BitVec.ofNat 5 die } } →
    exec (.sentHealth die apt) s = .next (finish s (((u.raise { det := 0x0806, loc := { die := die } }).hwFail true).failWaiters))) ∧
  (∀ s : State,
    (s.stewardsRun = true → s.ent.source = false → (s.ent.stop .switching).pairs < 12 → s.hwFail false = { s with ent := s.ent.stop .switching }) ∧
    (∀ pool : Bool, s.ent.source = false → 12 ≤ (s.ent.stop .switching).pairs → s.hwFail pool = { s with ent := (s.ent.stop .switching).enterRun false }) ∧
    (s.ent.source = true → 16 ≤ (s.ent.stop .switching).sentinels → s.hwFail true = { s with ent := (s.ent.stop .switching).enterRun true }) ∧
    (s.ent.source = true → (s.ent.stop .switching).sentinels < 16 → (s.hwFail true).ent.state = .failed) ∧
    (s.stewardsRun = false → s.ent.source = false → (s.ent.stop .switching).pairs < 12 → (s.hwFail false).ent.state = .failed)) ∧
  (∀ (s : State) (passed : BitVec 24) (u : State) (e : EntropyState) (en : Nat), s.ent.state = .startup → s.repairs = [] →
    en = (List.range 16).foldl (fun (n : Nat) k => if passed.getLsbD k then n ||| 2 ^ k else n) 0 →
    u = s.startupFails 16 en pairLoc → e = ({ u.ent with pairEn := BitVec.ofNat 16 en, pairFail := BitVec.ofNat 16 (65535 - en) } : EntropyState).noteStartup 16 en → 12 ≤ e.pairs →
    exec (.startupTest passed true) s = .next (finish s ({ u with ent := e.enterRun false } : State).platKey)) ∧
  (∀ (s : State) (passed out : BitVec 24) (u : State) (e : EntropyState), s.ent.state = .switching →
    out = (if s.ent.readmit = true then 0 else s.ent.sentFail) → u = s.startupFails 24 (passed ||| out).toNat (fun k => { die := k }) →
    e = ({ u.ent with sentEn := passed &&& ~~~ out, sentFail := u.ent.sentFail ||| ~~~ passed, readmit := false } : EntropyState).noteStartup 24
      (passed ||| out).toNat → 16 ≤ e.sentinels →
    exec (.startupTest passed true) s =
      .next (finish s (({ u with ent := e.enterRun true } : State).raise { det := 0x0808, loc := { die := 0x40 } }).platKey)) ∧
  (∀ (s : State) (kind : Nat), kind = 4 ∨ kind = 5 ∨ kind = 6 →
    exec (.katFailure kind) s = .next (finish s
      ((({ s with ent := { s.ent.stop .failed with lastTest := BitVec.ofNat 3 kind, lastUnit := 0 } } : State).raise
        { det := if kind = 4 then 0x0804 else if kind = 5 then 0x0805 else 0x0807, loc := { die := 0x40 } }).failWaiters))) ∧
  (∀ s : State, s.Calm →
    (s.ent.state = .run → s.ent.waiters = [] → exec .expSeed s = .next { s with ent := s.ent.seed }) ∧
    exec (.periodicKat true) s = .next { s with ent := { s.ent with sinceKat := 0 } } ∧
    (s.ent.state = .run → exec .maskingReseed s = .next { s with ent :=
      { (s.ent.output 32).2 with masks := (s.ent.output 32).2.masks.set 0 (s.ent.output 32).1 } })) ∧
  (∀ s : State, exec (.periodicKat false) s = .next (finish s (({ s with ent := { s.ent with sinceKat := 0 } } : State).katFailed 5))) ∧
  (∀ (s : State) (w : Waiter), s.ent.state = .run → s.ent.waiters = [w] → ∀ u : State, u = { s with ent := s.ent.seed } → u.ent.waiters = [w] →
    exec .expSeed s = .next (finishGeom s
      (({ u with ent := { u.ent with waiters := [], lastBox := if w.cls = 6 then w.box else u.ent.lastBox } } : State).handle w.req)))

/-- A device reset has come over a state: what it leaves (R9, R344, R473, R500). -/
structure Claim.WasReset (s : State) (c : Cause) (t : State) : Prop where
  held : t.power.inReset = true
  cause : t.power.resetCause = c.code.setWidth 32
  geom : t.geom = []
  parts : t.parts = []
  tiles : t.tiles = []
  mem : t.hbm.mem = []
  mode : t.firm.mode = .boot
  image : t.firm.image = none
  pregs : t.firm.pregs = s.firm.pregs
  jobs : t.journal.jobs = s.journal.jobs.map Job.atReset
  clock : t.clock.ref = 0
  fuses : t.fuses = s.fuses
  queue : t.pending = s.pending

/-- R455, R460, R473, R500, R503: RESET_N, the loss of 12 V AUX, a brownout and a thermal trip reset the device and leave their RESET_CAUSE; persistent
registers stay (over the loss of 12 V AUX too: the model's choice, log 116) and the journal keeps its jobs as R344 leaves them. RESET_N ends a trip on a
cool panel. -/
def Obligations.ResetsComplete : Prop :=
  ∀ s : State, s.err.due = [] →
    (s.power.inReset = false → s.power.trip = false → ∃ t, exec .resetN s = .next t ∧ Claim.WasReset s .resetN t ∧ t.power.trip = false) ∧
    (∃ t, exec .auxLoss s = .next t ∧ Claim.WasReset s .powerOn t ∧ t.err.ring = [] ∧ t.err.nextSeq = 0 ∧ t.power.auxUp = false) ∧
    (s.power.inReset = false → ∃ t, exec .vinBrownout s = .next t ∧ Claim.WasReset s .brownout t ∧ t.err.ring = s.err.ring) ∧
    (∀ (die : Nat) (temp : BitVec 8), ∃ t, exec (.thermTrip die temp) s = .next t ∧ Claim.WasReset s .thermTrip t ∧ t.power.trip = true ∧
      t.power.thermTripN = false ∧ t.power.railsOn = false) ∧
    (s.power.trip = true → s.power.inReset = true → s.resetReq = none → s.geom = [] → (∀ e ∈ s.power.dies, e.2.tj.toNat ≤ 90) →
      exec .resetN s = .next { s with power := { s.power with trip := false, thermTripN := true } })

/-- R373, R448, R457-R459, R469, R499: COLD_START releases a panel in reset with the next BOOT_EPOCH; REFCLK_25M lost in reset is noted, else detector
0x0E09; a dip of VIN sets DIP and gives way to HOLD, whose end counts detector 0x0E01; the blade's power limit raises 0x0E07 and ends. Each of the three halves
the clocks and is an emergency. -/
def Obligations.SuppliesComplete : Prop :=
  (∀ (s : State) (n : Nat), s.err.due = [] → s.resetReq = none → s.power.inReset = true → s.power.trip = false → s.epochRegister = some n →
    (s.preg n).wcount.toNat < 99999 → ∃ t, exec (.coldStart true true) s = .next t ∧ t.power.inReset = false ∧ t.power.pwrOk = true ∧
      t.power.railsOn = true ∧ t.power.txIdle = false ∧ (t.preg n).value = BitVec.ofNat 64 (s.bootEpoch + 1) ∧ (∀ m, m ≠ n → t.preg m = s.preg m) ∧
      t.firm.mode = s.firm.mode ∧ t.geom = s.geom ∧ t.tiles = s.tiles ∧ t.parts = s.parts ∧ t.err = s.err ∧
      ∀ k, k < 2 → (t.host.ports.getD k {}).up = !(s.repairs.contains (repairEntry 5 (0xF0 + k)))) ∧
  (∀ s : State, s.err.due = [] → s.resetReq = none → s.power.inReset = true → s.geom = [] →
    exec .refLoss s = .next { s with power := { s.power with refUp := false } }) ∧
  (∀ s : State, s.power.inReset = false → exec .refLoss s = .next (finish s (s.raise { det := 0x0E09, loc := { die := 0x40 } }))) ∧
  (∀ (s u : State) (vin : BitVec 16), s.power.inReset = false → u = s.beginEpisode 1 0xFF → s.firm.phase ≠ .waiting → s.Calm →
    exec (.vinDip vin) s = .next { u with power := { u.power with dip := true, hold := false, vin10mv := vin } }) ∧
  (∀ s : State, s.Calm → s.power.dip = true → exec .dipRecovery s = .next { s with power := { s.power with dip := false, hold := true } }) ∧
  (∀ s : State, s.power.hold = true → s.power.dip = false → exec .dipHoldEnd s = .next (finish s
    ((({ s with power := { s.power with hold := false } } : State).raise { det := 0x0E01, loc := { die := 0x40 } }).endEpisode 1 0xFF))) ∧
  (∀ (s : State), s.power.inReset = false → exec .bladeLimit s = .next (finish s
    (((({ s with power := { s.power with blade := true } } : State).beginEpisode 4 0xFF).raise { det := 0x0E07, loc := { die := 0x40 } }).emergencyBegan))) ∧
  (∀ (s : State), s.power.blade = true → exec .bladeLimitEnd s =
    .next (finish s (({ s with power := { s.power with blade := false } } : State).endEpisode 4 0xFF))) ∧
  (∀ s : State, (s.power.dip = true ∨ s.power.hold = true ∨ s.power.blade = true) → s.power.halved = true ∧ s.power.emergency = true)

/-- R454-R457, R461, Table 16-11: the limiters of a die. Its clamps are set with their detectors and end within their hysteresis, a droop counts, a tile PLL that
loses lock fails the jobs on its die, a mesh PLL and a limiter fault count against the device; Dreter's clock request is taken in its range, and DIE_PWR reads and
clears DROOP_CNT. -/
def Obligations.LimitersComplete : Prop :=
  ∀ (s : State) (die : Nat),
    (∀ temp : BitVec 8, s.power.inReset = false →
      (die < 24 → exec (.tjClamp die temp) s = .next (finish s
        ((((s.updDie die fun d => { d with tj := temp, tjClamp := true }).beginEpisode 2 die).raise { det := 0x0E03, loc := { die := die } }).emergencyBegan))) ∧
      (24 ≤ die → s.power.hotDies.contains die = false → ∀ u : State, u = s.updDie die (fun d => { d with tj := temp }) →
        exec (.tjClamp die temp) s = .next (finish s
        ((({ u with power := { u.power with hotDies := die :: u.power.hotDies } } : State).raise { det := 0x0E03, loc := { die := die } }).emergencyBegan)))) ∧
    (∀ temp : BitVec 8,
      ∀ u : State, u = s.updDie die (fun d => { d with tj := temp }) →
      (die < 24 → temp.toNat ≤ 100 → exec (.tjClampEnd die temp) s = .next (finish s
        ((u.updDie die fun d => { d with tjClamp := false }).endEpisode 2 die))) ∧
      (24 ≤ die → temp.toNat ≤ 100 → s.Calm →
        exec (.tjClampEnd die temp) s = .next { u with power := { u.power with hotDies := u.power.hotDies.erase die } })) ∧
    (s.power.inReset = false → exec (.railClamp die) s = .next (finish s
      ((((s.updDie die fun d => { d with vtile := 800, railClamp := true }).beginEpisode 3 die).raise { det := 0x0E05, loc := { die := die } }).emergencyBegan))) ∧
    (∀ mv : BitVec 12, mv.toNat ≤ 790 → (s.diePower die).railClamp = true → exec (.railClampEnd die mv) s = .next (finish s
      ((s.updDie die fun d => { d with vtile := mv, railClamp := false }).endEpisode 3 die))) ∧
    exec (.droop die) s = .next (finish s
      ((s.updDie die fun d => { d with droopCnt := BitVec.ofNat 16 (sat 16 (d.droopCnt.toNat + 1)) }).raise { det := 0x0E06, loc := { die := die } })) ∧
    exec (.pllLock die true) s = .next (finish s (s.raise { det := 0x0E08, loc := { die := die, unit := 1 }, cls := some 4 })) ∧
    (s.partsOnDie die = [] → exec (.pllLock die false) s = .next (finish s (s.raise { det := 0x0E08, loc := { die := die, unit := 0 } }))) ∧
    (∀ (p : Nat) (ps : List Nat), s.partsOnDie die = p :: ps → exec (.pllLock die false) s = .next (finish s
      (ps.foldl (fun s q => s.fatal q false) (s.raise { det := 0x0E08, loc := { die := die, unit := 0 }, part := p })))) ∧
    exec (.limiterFault die) s = .next (finish s (s.raise { det := 0x0E0B, loc := { die := die } })) ∧
    (∀ f : BitVec 8, s.Calm → s.firm.mode = .run → 50 ≤ f.toNat → f.toNat ≤ 200 → die < 24 →
      exec (.clockRequest die f) s = .next ((s.updDie die fun d => { d with fReq := f }).setRail die)) ∧
    (∀ f : BitVec 8, s.firm.mode = .run → (f.toNat < 50 ∨ 200 < f.toNat) →
      exec (.clockRequest die f) s = .next (finish s (s.raise { det := 0x0C07, loc := { die := 0x40 } }))) ∧
    (s.Calm → exec (.diePwr die) s = .next (({ s with readOut := s.diePwr die } : State).updDie die fun d => { d with droopCnt := 0 }))

/-- R449-R453, R464: sleep and ageing. An idle tile is gated and wakes; a die whose tiles all have their units stopped (gated, fused off, spare or outside every partition) and whose partitions run no job sleeps and wakes; deep idle is
entered under R451's conditions and left with the waiting requests served; its scrub pass; and a sentinel window sets slow_ppm. -/
def Obligations.SleepCompletes : Prop :=
  ∀ s : State, s.Calm →
    (∀ x y : Nat, s.tileIdle x y = true → s.power.gated.contains (physIx x y) = false →
      exec (.tileGate x y) s = .next { s with power := { s.power with gated := physIx x y :: s.power.gated } }) ∧
    (∀ x y : Nat, exec (.tileWake x y) s = .next { s with power := { s.power with gated := s.power.gated.erase (physIx x y) } }) ∧
    (∀ die : Nat, (∀ k c : Nat, k < 13 → c < 12 → s.unitsOff (die % 4 * 12 + c) (die / 4 * 13 + k) = true) →
      (∀ p ∈ s.partsOnDie die, s.atBoundary p = true) → exec (.dieSleep die) s = .next (s.updDie die fun d => { d with asleep := true })) ∧
    (∀ die : Nat, exec (.dieWake die) s = .next (s.updDie die fun d => { d with asleep := false })) ∧
    (s.mayDeepIdle = true → ∃ t, exec .deepIdle s = .next t ∧ t.power.deepIdle = true ∧ t.power.txIdle = true ∧
      (∀ n, n < 24 → t.diePower n = { s.diePower n with vtile := 500, asleep := true }) ∧
      t = { s with power := t.power, trib := { s.trib with ports := s.trib.ports.mapVals fun p => { p with up := false } } }) ∧
    (s.power.deepIdle = true → s.power.wakers = [] → ∃ t, exec .deepIdleExit s = .next t ∧ t.power.deepIdle = false ∧ t.power.txIdle = false ∧
      (∀ n, n < 24 → t.diePower n = { s.diePower n with vtile := s.railMv n, asleep := false }) ∧
      t = { s with power := t.power, trib := { s.trib with ports := s.trib.ports.mapVals fun p => { p with up := !p.disabled } } }) ∧
    (s.power.deepIdle = true → s.power.wakers = [] → ∃ t, exec .scrubWake s = .next t ∧ t.power.deepIdle = false ∧ t.power.txIdle = false ∧
      t = { s with power := t.power, trib := { s.trib with ports := s.trib.ports.mapVals fun p => { p with up := !p.disabled } },
                   hbm := { s.hbm with stackTab := s.hbm.stackTab.mapVals fun k => { k with scrub := 0 } } }) ∧
    (∀ (x y : Nat) (count : BitVec 32) (mv tj slow : Nat) (u : State),
      slow = slowPpm count.toNat (Config.sentBase (physIx x y)) mv tj (Config.kvPpm (dieAt x y)) (Config.ktPpm (dieAt x y)) →
      u = { s with power := { s.power with slows := s.power.slows.set (physIx x y) slow } } →
      exec (.ageWindow x y count mv tj) s = .next (u.updDie (dieAt x y) fun d => { d with slow := BitVec.ofNat 24 (sat 24 (u.dieSlow (dieAt x y))) }))

/-- R9, R11 and the register tables: a write reaches the fields its access code gives it and nothing else. W1C bits fall, RWS and RW fields are stored where their
ranges allow, the reserved bits of a persistent register are not stored, and a register that another operation writes is left alone. -/
def Obligations.RegisterWritesComplete : Prop :=
  ∀ (s : State) (v : Word), s.Calm →
    (∀ t : Nat, exec (.registerWrite (.fpStatus t) v) s = .next (s.updTile t fun x => { x with fp := x.fp &&& ~~~(v.setWidth 32 &&& 0xF) })) ∧
    (∀ t : Nat, exec (.registerWrite (.riffleStatus t) v) s = .next (s.updTile t fun x => { x with
      checkErr := x.checkErr && !(bit v.toNat 31), romErr := x.romErr && !(bit v.toNat 30), katFail := x.katFail && !(bit v.toNat 29) })) ∧
    (∀ x y : Nat, x < 48 → y < 78 → exec (.registerWrite (.routerCtrl x y) v) s = .next (s.updRouter x y fun r => { r with ctrl := v.setWidth 32 &&& 0xF0 })) ∧
    exec (.registerWrite .resetCause v) s = .next { s with power := { s.power with resetCause := (v.setWidth 8).setWidth 32 } } ∧
    (∀ (id : Nat) (cfg : Word), cfg = v &&& 0xFFFF0FFFE0FFFF00 → s.fuses.hasPort id = true → s.portOpen (some id) = false → tribCfgOk cfg.toNat = true →
      exec (.registerWrite (.tribCfg id) v) s =
        .next { s with trib := { s.trib with ports := s.trib.ports.set id { s.trib.ports.getD id {} with cfg := cfg } } }) ∧
    (∀ n : Nat, 152 ≤ n → n < 384 → (s.preg n).wcount.toNat < 99999 → exec (.registerWrite (.persistent n) v) s = .next (s.pregWrite n (v &&& pregMask n))) ∧
    (∀ reg : RegId, (∀ t, reg ≠ .fpStatus t ∧ reg ≠ .riffleStatus t ∧ reg ≠ .seqProgress t ∧ reg ≠ .eyepiece t ∧ reg ≠ .tribCfg t ∧ reg ≠ .persistent t) →
      (∀ x y, reg ≠ .routerCtrl x y) → reg ≠ .resetCause → exec (.registerWrite reg v) s = .next s)

/-- A frame of a type is delivered: it is heard, it is no duplicate and lies in the receive window, its context lies in the window of contexts; what P says of the
marked panel, the frame, the connection and the payload holds; the panel is then the one E names. -/
def Claim.delivered (c : TFrame → Instr) (type : Nat) (P : State → TFrame → Conn → List Byte → Prop)
    (E : State → TFrame → Conn → List Byte → State) : Prop :=
  ∀ (s u : State) (f : TFrame) (k q : Conn) (b : List Byte), s.Hears type f k b → (f.seq - k.cum).toNat < 65536 → k.above.contains f.seq = false →
    k.ctxFault f type = none → u = s.marked k f → u.conn k.part k.peer k.ix = some q → P u f q b → exec (c f) s = .next (finish s (E u f q b))

/-- R294, R298, R302, R306, R312, R313, R164, R165, R103-R105, R289: Tributary frames. A frame that is heard is taken by trib_receive; the next frame of a connection delivers its
message, entries, barrier message, LEAVE or OPEN, and an ACK covers what it names. -/
def Obligations.TributaryFramesComplete : Prop :=
  Claim.delivered .dataFrame 1
    (fun _ f q b => 17 ≤ b.length ∧ field b 0 4 ≠ 0 ∧ field b 0 4 ≤ 16777216 ∧ field b 4 4 + (b.drop 16).length ≤ field b 0 4 ∧ zeroBytes b 9 7 = true ∧
      q.rx.find (ctxSerial f.context.toNat) = none)
    (fun u f q b =>
      let m := RxMsg.put { type := 1, channel := field b 8 1, mcast := f.flags.getLsbD 12 } (field b 4 4) (b.drop 16) (some (field b 0 4))
      let slot := fun (r : Region) => Config.ringSlot q.peer (ctxSerial f.context.toNat) % (r.bytes / max 1 r.maxMsg) * r.maxMsg + field b 4 4
      let v := (u.updConn q.part q.peer q.ix fun c => c.setRx (ctxSerial f.context.toNat) m).regionWrite q.part 2 (field b 8 1) slot (b.drop 16)
      if m.whole = true then v.portArrived q.part else v) ∧
  (∀ (wide : Bool) (size off : Nat) (h : HaloIn) (total : Option Nat), Claim.delivered .haloFrame 3
    (fun _ f q b => 24 ≤ b.length ∧ wide = bit (field b 22 2) 14 ∧ size = (if wide then 520 else 8) ∧ bits (field b 22 2) 13 0 = 0 ∧
      (b.drop 24).length = size * field b 20 2 ∧ field b 12 2 ≤ 15 ∧ (field b 20 2 ≠ 0 ∨ bit (field b 22 2) 15 = true) ∧ off = field b 16 4 * size ∧
      total = (if bit (field b 22 2) 15 then some (off + (b.drop 24).length) else none) ∧ q.rx.find (ctxSerial f.context.toNat) = none ∧
      h = { panel := q.peer, src := field b 14 2, step := field b 0 8, sweep := field b 8 4, colour := field b 12 2, wide := wide })
    (fun u f q b =>
      let m := RxMsg.put { type := 3, channel := 0 } off (b.drop 24) total
      let v := u.updConn q.part q.peer q.ix fun c => c.setRx (ctxSerial f.context.toNat) { m with complete := m.whole }
      let held := ((v.part q.part).getD {}).haloIn.any fun c => c.sameGroup h && c.parts.has off
      (if held = true then v else v.regionWrite q.part 1 0 (fun _ => Config.haloPlace h.src h.step h.sweep h.colour off) (b.drop 24)).updPart q.part
        fun x => { x with haloIn := putHalo h off (b.drop 24) total x.haloIn })) ∧
  (∀ (off : Nat) (total : Option Nat), Claim.delivered .chainFrame 4
    (fun _ f q b => 24 ≤ b.length ∧ bit (field b 22 2) 14 = false ∧ bits (field b 22 2) 13 4 = 0 ∧ field b 22 2 % 16 ≤ 3 ∧
      (b.drop 24).length = 8 * field b 20 2 ∧ 1 ≤ field b 20 2 ∧ field b 20 2 ≤ 1021 ∧ off = field b 16 4 * 8 ∧
      total = (if bit (field b 22 2) 15 then some (off + (b.drop 24).length) else none) ∧ q.rx.find (ctxSerial f.context.toNat) = none)
    (fun u f q b =>
      let m := RxMsg.put { type := 4, channel := 0 } off (b.drop 24) total
      let v := u.updConn q.part q.peer q.ix fun c => c.setRx (ctxSerial f.context.toNat) { m with complete := m.whole }
      let fresh := !(((v.part q.part).getD {}).chainIn.any fun c => decide (c.id = field b 8 4 ∧ c.step = field b 0 8) && c.parts.has off)
      (if fresh = true then v.regionWrite q.part 0 0 (fun _ => Config.inboxPlace (field b 8 4) (field b 0 8) off) (b.drop 24) else v).updPart q.part
        fun x => { x with chainIn := putChain (field b 8 4) (field b 0 8) (field b 12 4) (field b 22 2 % 16) off (b.drop 24) total false x.chainIn })) ∧
  Claim.delivered .chainFrame 4
    (fun _ f q b => b.length = 24 ∧ bit (field b 22 2) 14 = true ∧ bits (field b 22 2) 13 4 = 0 ∧ field b 22 2 % 16 ≤ 3 ∧ field b 20 2 = 0 ∧
      q.rx.find (ctxSerial f.context.toNat) = none)
    (fun u f q b =>
      let m := RxMsg.put { type := 4, channel := 0 } (field b 16 4 * 8) [] (some (field b 16 4 * 8))
      let v := (u.updConn q.part q.peer q.ix fun c => c.setRx (ctxSerial f.context.toNat) { m with complete := true }).updPart q.part
        fun x => { x with chainIn := putChain (field b 8 4) (field b 0 8) (field b 12 4) (field b 22 2 % 16) (field b 16 4 * 8) [] none true x.chainIn }
      if v.headWaits q.part (field b 8 4) (field b 0 8) = true then v.endJob q.part .aborted else v) ∧
  (∀ (x : Part) (r : RunJob) (j : Job) (n : Nat), Claim.delivered .arriveFrame 5
    (fun u _ q b => u.part q.part = some x ∧ u.running q.part = some (r, j) ∧ b.length = 32 ∧ field b 12 1 = 0 ∧ zeroBytes b 13 3 = true ∧
      zeroBytes b 20 12 = true ∧ field b 0 8 = (u.meridian q.part).toNat ∧ field b 8 4 = j.mpj.toNat ∧
      j.panelList.findIdx? (fun p => decide (p = q.peer)) = some n ∧ n ∈ treeChildren (u.position j) j.panelList.length ∧
      x.released = false ∧ (∀ a ∈ x.arrives, a.1 ≠ n))
    (fun u _ q b => ((u.updPart q.part fun x => { x with arrives := x.arrives ++ [(n, field b 16 4, field b 0 8)] }).treeCheck q.part).tryRelease q.part)) ∧
  (∀ (x : Part) (r : RunJob) (j : Job) (n : Nat), Claim.delivered .releaseFrame 5
    (fun u _ q b => u.part q.part = some x ∧ u.running q.part = some (r, j) ∧ b.length = 32 ∧ field b 12 1 = 1 ∧ zeroBytes b 13 3 = true ∧
      zeroBytes b 20 12 = true ∧ field b 0 8 = (u.meridian q.part).toNat ∧ field b 8 4 = j.mpj.toNat ∧
      j.panelList.findIdx? (fun p => decide (p = q.peer)) = some n ∧ u.position j ≠ 0 ∧ n = (u.position j - 1) / 16 ∧ x.gathered = true)
    (fun u _ q _ => (u.treeRelease q.part j).tryRelease q.part)) ∧
  Claim.delivered .leaveFrame 6
    (fun _ _ _ b => b.length = 32 ∧ field b 4 1 ≤ 2 ∧ zeroBytes b 5 27 = true)
    (fun u _ q _ => u.panelLost q.peer) ∧
  Claim.delivered .leaveFrame 6
    (fun _ _ _ b => b.length = 32 ∧ field b 4 1 = 3 ∧ zeroBytes b 5 27 = true)
    (fun u _ q _ =>
      let v := u.updConn q.part q.peer q.ix fun c => { c with left := true }
      (if (u.running q.part).isSome ∧ q.leaving = false then v.peerGone q.part q.peer else v).afterAck q.part q.peer q.ix) ∧
  (∀ (r : RunJob) (j : Job), Claim.delivered .openConn 7
    (fun u _ q b => b.length = 32 ∧ zeroBytes b 15 17 = true ∧
      (∀ c ∈ u.trib.conns, c.peer = q.peer → c.openGot = true → c.peerEpoch.toNat = field b 0 4) ∧ u.running q.part = some (r, j) ∧
      field b 4 4 = q.mpj.toNat ∧ field b 8 4 = (j.panelList.findIdx? fun n => decide (n = q.peer)).getD 0 ∧ field b 12 2 = q.win ∧ field b 14 1 = q.share)
    (fun u _ q b =>
      let v : State := { u with trib := { u.trib with lost := u.trib.lost.filter fun n => decide (n ≠ q.peer) } }
      (v.updConn q.part q.peer q.ix fun c =>
        { c with openGot := true, peerEpoch := BitVec.ofNat 32 (field b 0 4), peerPos := field b 8 4 }).checkOpen q.part)) ∧
  (∀ (s u v : State) (f : TFrame) (k : Conn) (b : List Byte) (polls : List (Nat × Nat)), s.Hears 2 f k b → f.flags.getLsbD 15 = false → b.length = 32 →
    field b 8 4 < 2 ^ 24 → zeroBytes b 20 12 = true →
    u = (s.updConn k.part k.peer k.ix fun c => { c with rxCount := c.rxCount + 1, ceCount := c.ceCount + bnat f.ce }) →
    polls = ((u.conn k.part k.peer k.ix).map fun c => c.passedFerries (field b 8 4)).getD [] →
    v = (u.updConn k.part k.peer k.ix fun c =>
      ((c.acked u.nowNs (u.tport k.port).rtoMin fun q => decide ((q - f.ack - 1).toNat < 64) && bit (field b 0 8) (q - f.ack - 1).toNat).setHorizon
        (field b 8 4)).onAck u.clock.ref (field b 12 4) (field b 16 4)).afterAck k.part k.peer k.ix →
    exec (.ackFrame f) s = .next (finish s (polls.foldl (fun s f => s.portPoll k.part f.1 f.2) v)))

/-- R278-R283: lock-step messages, within the panel or over a connection. START is compared with the local one or kept; a DIGEST is held and compared; FREEZE stops the job at
its step; HOLD and RESUME stop and let go the message timer. -/
def Obligations.LockstepMessagesComplete : Prop :=
  ∀ (s u : State) (f : TFrame) (w : TWire) (x : Part) (pr : Pairing) (p : Nat), f.port = 0xFF →
    s.trib.sent.find? (fun w => decide (w.port = 0xFF) && decide (w.type = 8) && decide (w.dstPart = f.dstPart.toNat) &&
      decide (w.srcPart = f.srcPart.toNat) && decide (w.body = f.body)) = some w → w.dstPart = p →
    u = { s with trib := { s.trib with sent := s.trib.sent.erase w } } → s.part p = some x → x.pairing = some pr →
    field w.body 0 4 = pr.pairId.toNat →
    (field w.body 4 1 = 0 → pr.startSent = true → pr.started = false → u.pairOf p ≠ none →
      exec (.startFrame f) s = .next (finish s (u.compareStart p w.body))) ∧
    (field w.body 4 1 = 0 → pr.startSent = false → s.Calm →
      exec (.startFrame f) s = .next (u.updPair p fun q => { q with early := some w.body })) ∧
    (field w.body 4 1 = 1 → exec (.digestFrame f) s = .next (finish s ((State.compareDigests 17
      (u.updPair p fun q => { q with peers := q.peers.set (field w.body 8 8) (BitVec.ofNat 64 (field w.body 16 8)) }) p).tryRelease p))) ∧
    (field w.body 4 1 = 2 → u.pairOf p ≠ none →
      exec (.freezeFrame f) s = .next (finish s (u.freeze p (field w.body 8 8) (pr.peers.has (field w.body 8 8))))) ∧
    (field w.body 4 1 = 3 → s.Calm → exec (.holdFrame f) s = .next (u.updPair p fun q => { q with peerHeld := true })) ∧
    (field w.body 4 1 = 4 → s.Calm → exec (.lstepResume f) s = .next (u.updPair p fun q => { q with peerHeld := false }))

/-- R281, R286, R289, R298-R300, R310, R312, R315: the transport's timers and links. A lost pair ends its job; an expired retransmission timer sends the frame again or, after RETRY_MAX, gives the
peer up; an acknowledgement falls due; the rate rises; connections that do not open and ports that stay down end their jobs; a port answers a solicitation of its address, to its gateway; and a link
changes. -/
def Obligations.TransportTimersComplete : Prop :=
  ∀ s : State,
    (∀ (p : Nat) (pr : Pairing), s.pairOf p = some pr → pr.peerHeld = false →
      exec (.lsTimeout p) s = .next (finish s (((s.raise { det := 0x1002, part := p }).endJob p .peerLost).unpair p))) ∧
    (∀ (part peer ix : Nat) (seq : BitVec 32) (k : Conn) (t : TSent), s.conn part peer ix = some k → k.unacked.find? (fun t => decide (t.seq = seq)) = some t →
      k.taken t = false →
      (t.xmit < (s.tport k.port).retryMax →
        exec (.rto part peer ix seq) s = .next (finish s (s.resend k t fun u => { u with timeout := min 10000 (2 * u.timeout) }))) ∧
      ((s.tport k.port).retryMax ≤ t.xmit → exec (.rto part peer ix seq) s = .next (finish s (s.panelLost peer)))) ∧
    (∀ (part peer ix : Nat) (k : Conn), s.Calm → s.conn part peer ix = some k → 0 < k.ackDue →
      exec (.tribAckTimer part peer ix) s = .next ((s.ackNow part peer ix).closeDone part peer ix)) ∧
    (∀ (part peer ix : Nat), s.Calm → exec (.every20us part peer ix) s = .next (s.updConn part peer ix fun k => k.every20us s.clock.ref)) ∧
    (∀ (k : Conn) (ref : Nat), 20000 ≤ (ref - k.lastCut) * 40 → k.rate ≤ k.line → k.target ≤ k.line →
      (k.every20us ref).rate ≤ k.line ∧ (k.every20us ref).calm = k.calm + 1 ∧ (k.every20us ref).alpha = k.alpha * 15 / 16) ∧
    (∀ (part : Nat) (r : RunJob) (j : Job), s.running part = some (r, j) → r.open_ = false → s.connsReady part = false →
      exec (.openTimeout part) s = .next (finish s (s.endJob part .peerLost))) ∧
    (∀ port : Nat, (s.tport port).up = false → exec (.portDownTimeout port) s = .next (finish s
      (((s.trib.conns.filter fun k => decide (k.port = port)).map (·.peer)).eraseDups.foldl (fun s n => s.panelLost n) s))) ∧
    (∀ (port : Nat) (target : BitVec 128), s.Calm → (s.tport port).up = true → (s.tport port).disabled = false → s.power.deepIdle = false →
      s.panelNo ≠ none → target = s.addrOf s.panel port →
      exec (.neighborSolicitation port target) s = .next { s with trib := { s.trib with adverts := (port, (s.tport port).gateway) :: s.trib.adverts } }) ∧
    (∀ (port : Nat) (up retrained : Bool) (p : TPort) (u : State), p = s.tport port → s.fuses.hasPort port = true → p.disabled = false → s.power.inReset = false →
      s.power.deepIdle = false → u = { s with trib := { s.trib with ports := s.trib.ports.set port { p with up := up } } } →
      (((p.up && !up) || retrained) = false → s.Calm → exec (.tribLink port up retrained) s = .next u) ∧
      (((p.up && !up) || retrained) = true → exec (.tribLink port up retrained) s =
        .next (finish s (u.raise { det := 0x0A06, loc := portLoc port, place := port }))))

/-- The queue of commands is first in, first out: one step takes the command at its front and runs it with the queue's rest. -/
def Obligations.StepRunsFront : Prop :=
  ∀ (c : Instr) (rest : List Instr) (s : State), s.pending = c :: rest → step s = exec c { s with pending := rest }

/-- A step on an empty queue lets the clocks count 16 microseconds and does nothing else (the model's choice, log 10): REF counts 400 cycles while it runs, the tile
domains of an awake die 16 cycles for each MHz of f_eff, ROT 8000 while VAON is up, and a stopped domain none (Table 16-2). -/
def Obligations.IdleTick : Prop :=
  ∀ s : State, s.pending = [] →
    step s = .next s.tick ∧ s.tick = { s with clock := s.tick.clock } ∧
    (s.power.refUp = true → s.power.auxUp = true → s.tick.clock.ref = s.clock.ref + 400 ∧ s.tick.clock.life = s.clock.life + 400) ∧
    (s.power.auxUp = false → s.tick.clock.ref = s.clock.ref ∧ s.tick.clock.life = s.clock.life) ∧
    (s.power.auxUp = true → s.tickCycles 1 = 8000 ∧ s.tickCycles 3 = 20000) ∧
    (∀ die : Nat, (s.diePower die).asleep = true ∨ s.power.inReset = true ∨ s.power.deepIdle = true → s.tickTile die = 0) ∧
    (∀ die : Nat, (s.diePower die).asleep = false → s.power.inReset = false → s.power.deepIdle = false → s.tickTile die = (s.fEff die * 16).floor.toNat)

/-- Every command ends in a next state: the panel answers every input and never stops (R13, R472). The queue and the fuses stay; the rectangles of the partitions stay, or
a device reset ends them, for every command but PART_CREATE and PART_DESTROY and the three commands that serve requests that waited. -/
def Obligations.EveryCommandEnds : Prop :=
  ∀ (c : Instr) (s : State), ∃ t : State, exec c s = .next t ∧ t.pending = s.pending ∧ t.fuses = s.fuses ∧
    ((∀ f : VFrame, c ≠ .partCreate f) → (∀ f : VFrame, c ≠ .partDestroy f) → c ≠ .expSeed → c ≠ .deepIdleExit → c ≠ .scrubWake →
      t.geom = s.geom ∨ (t.geom = [] ∧ t.power.inReset = true))

/-- R23, R28, R29: after every step the rectangles of the partitions have the shape of R28, do not overlap, carry different numbers from 1 to 64 and are at most 64, if they
were so before it; the grade is the one before it, and it fits the good tiles of every die column if it did. -/
def Obligations.StepKeepsGeometry : Prop :=
  ∀ s t : State, s.GeomLegal → step s = .next t →
    t.GeomLegal ∧ t.fuses.gradeC = s.fuses.gradeC ∧ (s.fuses.graded = true → t.fuses.graded = true)

/-- The panel after reset meets what every step keeps: legal rectangles, and a grade that its good tiles have; it is in reset, and its memories are in their canonical form. -/
def Obligations.ResetGeometry : Prop := State.reset.GeomLegal ∧ State.reset.fuses.graded = true ∧ State.reset.MemWf ∧ State.reset.power.inReset = true ∧ State.reset.pending = []

/-- R30, Table 1-3: the census code of a partition gives its width in bits 31:16 and its height in bits 15:0, both in their ranges and in 32 bits, and reads 0 when the
partition does not exist. -/
def Obligations.CensusCode : Prop :=
  ∀ (s : State) (p : Nat), s.GeomLegal →
    (∀ r : Rect, r ∈ s.geom → r.part = p →
      s.census p < 2 ^ 32 ∧ s.census p / 65536 = r.w ∧ s.census p % 65536 = r.h ∧ 4 ≤ r.w ∧ r.w ≤ 48 ∧ 2 ≤ r.h ∧ r.h ≤ 72) ∧
    ((∀ r ∈ s.geom, r.part ≠ p) → s.census p = 0)

/-- R454: the effective tile clock of a die in MHz, step by step as the pseudocode has it; f_req is DIE_PWR's request and f_plan the F_MAX of the plan in force, both in
units of 5 MHz. -/
def Obligations.EffectiveTileClock : Prop :=
  ∀ (s : State) (die : Nat) (f0 f1 f2 f3 : Rat),
    f0 = min (5 * (s.diePower die).fReq.toNat : Rat) (5 * (s.plan die).2.1 : Rat) → f1 = min f0 1050 →
    f2 = (if (s.diePower die).tjClamp = true then min f1 250 else f1) → f3 = (if (s.diePower die).railClamp = true then f2 * 7 / 8 else f2) →
    s.fEff die = if s.power.dip = true ∨ s.power.hold = true ∨ s.power.blade = true then f3 / 2 else f3
end

