-- ==== Sys2Proof/Laws/Crypto.lean ====
section
/-! SUPPORT. Laws of the named functions: lengths of digests and blocks, and that opening undoes sealing. -/

namespace Sys2Proof.Machine

@[simp] theorem leBytes_length (n x : Nat) : (leBytes n x).length = n := by
  induction n generalizing x with
  | zero => rfl
  | succ n ih => simp [leBytes, ih]

@[simp] theorem beBytes_length (n x : Nat) : (beBytes n x).length = n := by simp [beBytes]

/-! ## Keccak -/

theorem keccakRound_length (a : List Word) (rc : Word) : (keccakRound a rc).length = 25 := rfl

theorem keccakF_length (a : List Word) : (keccakF a).length = 25 := by
  have key : ∀ (l : List Word) (b : List Word), b.length = 25 → (l.foldl keccakRound b).length = 25 := by
    intro l
    induction l with
    | nil => intro b h; exact h
    | cons c l ih => intro b _; exact ih _ (keccakRound_length _ _)
  unfold keccakF
  cases h : keccakRc with
  | nil => simp [keccakRc] at h
  | cons c l => rw [List.foldl_cons]; exact key l _ (keccakRound_length _ _)

theorem spongeIn_length (n : Nat) (a : List Word) (m : List Byte) (h : a.length = 25) : (spongeIn n a m).length = 25 := by
  induction n generalizing a m with
  | zero => exact h
  | succ n ih => exact ih _ _ (keccakF_length _)

theorem spongeOut_length (n : Nat) (a : List Word) (h : a.length = 25) : (spongeOut n a).length = 136 * n := by
  induction n generalizing a with
  | zero => rfl
  | succ n ih =>
    have e : ∀ l : List Word, (l.flatMap fun w => leBytes 8 w.toNat).length = 8 * l.length := by
      intro l
      induction l with
      | nil => rfl
      | cons w l ih => simp [ih]; ring
    simp only [spongeOut, List.length_append, ih _ (keccakF_length a), e, List.length_take, h]
    omega

theorem sponge_length (d : Byte) (m : List Byte) (n : Nat) : (sponge d m n).length = n := by
  unfold sponge
  rw [List.length_take, spongeOut_length _ _ (spongeIn_length _ _ _ (by simp))]
  omega

@[simp] theorem shake256_length (m : List Byte) (n : Nat) : (shake256 m n).length = n := sponge_length _ _ _

@[simp] theorem digest256_length (m : List Byte) : (digest256 m).length = 32 := sponge_length _ _ _

@[simp] theorem kmac256_length (k m : List Byte) (n : Nat) (c : String) : (kmac256 k m n c).length = n := sponge_length _ _ _

/-! ## AES -/

theorem chunksOf_mem (k n : Nat) (bs : List Nat) (h : bs.length = k * n) : ∀ c ∈ chunksOf k n bs, c.length = k := by
  induction n generalizing bs with
  | zero => simp [chunksOf]
  | succ n ih =>
    have h' : bs.length = k * n + k := by rw [h]; ring
    intro c hc
    simp only [chunksOf, List.mem_cons] at hc
    rcases hc with rfl | hc
    · simp [h']
    · exact ih (bs.drop k) (by simp [h']) c hc

theorem chunksOf_length (k n : Nat) (bs : List Nat) : (chunksOf k n bs).length = n := by
  induction n generalizing bs with
  | zero => rfl
  | succ n ih => simp [chunksOf, ih]

theorem expandKey_words (n i : Nat) (ws : List (List Nat)) (h : ∀ w ∈ ws, w.length = 4) (hl : 8 ≤ ws.length) :
    (∀ w ∈ expandKey n i ws, w.length = 4) ∧ (expandKey n i ws).length = ws.length + n := by
  induction n generalizing i ws with
  | zero => exact ⟨h, rfl⟩
  | succ n ih =>
    have h0 : (ws.getD 0 []).length = 4 := by
      rw [List.getD_eq_getElem _ _ (by omega)]; exact h _ (List.getElem_mem _)
    have h7 : (ws.getD 7 []).length = 4 := by
      rw [List.getD_eq_getElem _ _ (by omega)]; exact h _ (List.getElem_mem _)
    unfold expandKey
    simp only []
    generalize ws.getD 0 [] = prev at h0
    generalize ws.getD 7 [] = old at h7
    have e : ∀ t : List Nat, t.length = 4 → (∀ w ∈ expandKey n (i + 1) (old.zipWith (· ^^^ ·) t :: ws), w.length = 4) ∧
        (expandKey n (i + 1) (old.zipWith (· ^^^ ·) t :: ws)).length = ws.length + (n + 1) := by
      intro t ht
      have := ih (i + 1) (old.zipWith (· ^^^ ·) t :: ws)
        (by intro w hw; simp only [List.mem_cons] at hw; rcases hw with rfl | hw
            · simp [ht, h7]
            · exact h w hw)
        (by simp; omega)
      exact ⟨this.1, by rw [this.2]; simp; omega⟩
    apply e
    split_ifs <;> simp [h0]

theorem roundKeys_get (key : List Nat) (h : key.length = 32) (r : Nat) (hr : r < 15) : ((roundKeys key).getD r []).length = 16 := by
  have hw := expandKey_words 52 8 (chunksOf 4 8 key).reverse
    (by intro w hw; exact chunksOf_mem 4 8 key (by omega) w (by simpa using hw)) (by simp [chunksOf_length])
  simp only [List.length_reverse, chunksOf_length] at hw
  unfold roundKeys
  simp only []
  generalize (expandKey 52 8 (chunksOf 4 8 key).reverse) = ws at hw
  have e : ∀ l : List (List Nat), (∀ w ∈ l, w.length = 4) → l.flatten.length = 4 * l.length := by
    intro l
    induction l with
    | nil => intro _; rfl
    | cons w l ih =>
      intro h
      simp only [List.flatten_cons, List.length_append, List.length_cons, h w (by simp), ih (fun w hw => h w (by simp [hw]))]
      ring
  rw [List.getD_eq_getElem _ _ (by simpa using hr)]
  simp only [List.getElem_map, List.getElem_range]
  rw [e _ (fun w hw' => hw.1 w (by simpa using List.mem_of_mem_drop (List.mem_of_mem_take hw')))]
  simp [hw.2]
  omega

theorem aesBlock_length (key b : List Nat) (h : key.length = 32) : (aesBlock (roundKeys key) b).length = 16 := by
  unfold aesBlock
  simp only []
  rw [List.length_zipWith, roundKeys_get key h 14 (by omega)]
  simp [shiftRows]

/-! ## GCM -/

theorem ctrRun_length (rk : List (List Nat)) (h : ∀ b, (aesBlock rk b).length = 16) (iv : List Byte) (n c : Nat) (bs : List Byte)
    (hb : bs.length ≤ 16 * n) : (ctrRun rk iv n c bs).length = bs.length := by
  induction n generalizing c bs with
  | zero => simp [ctrRun]; omega
  | succ n ih =>
    simp only [ctrRun, List.length_append, List.length_zipWith, List.length_take, List.length_map, h]
    rw [ih _ _ (by simp; omega)]
    simp only [List.length_drop]
    omega

theorem ctrRun_succ (rk : List (List Nat)) (iv : List Byte) (n c : Nat) (bs : List Byte) :
    ctrRun rk iv (n + 1) c bs = (bs.take 16).zipWith (· ^^^ ·) ((aesBlock rk (natBytes (iv ++ beBytes 4 c))).map (BitVec.ofNat 8 ·)) ++
      ctrRun rk iv n (c + 1) (bs.drop 16) := rfl

/-- Enciphering twice gives the bytes back. -/
theorem ctrRun_ctrRun (rk : List (List Nat)) (h : ∀ b, (aesBlock rk b).length = 16) (iv : List Byte) (n c : Nat) (bs : List Byte)
    (hb : bs.length ≤ 16 * n) : ctrRun rk iv n c (ctrRun rk iv n c bs) = bs := by
  induction n generalizing c bs with
  | zero => simp only [Nat.mul_zero, Nat.le_zero_eq, List.length_eq_zero_iff] at hb; simp [ctrRun, hb]
  | succ n ih =>
    have zz : ∀ x k : List Byte, x.length ≤ k.length → (x.zipWith (· ^^^ ·) k).zipWith (· ^^^ ·) k = x := by
      intro x
      induction x with
      | nil => intro k _; simp
      | cons a x ihx =>
        intro k hk
        cases k with
        | nil => simp at hk
        | cons b k =>
          simp only [List.zipWith_cons_cons, List.cons.injEq]
          exact ⟨by rw [BitVec.xor_assoc, BitVec.xor_self, BitVec.xor_zero], ihx k (by simpa using hk)⟩
    rw [ctrRun_succ, ctrRun_succ]
    have hk : ((aesBlock rk (natBytes (iv ++ beBytes 4 c))).map (BitVec.ofNat 8 ·)).length = 16 := by simp [h]
    generalize (aesBlock rk (natBytes (iv ++ beBytes 4 c))).map (BitVec.ofNat 8 ·) = k at hk
    by_cases hs : bs.length ≤ 16
    · have hd : bs.drop 16 = [] := by simp [hs]
      have ht : bs.take 16 = bs := by simp [hs]
      have hn : ctrRun rk iv n (c + 1) [] = [] := by
        have := ctrRun_length rk h iv n (c + 1) [] (by simp)
        simpa using this
      rw [hd, hn, ht, List.append_nil]
      have l1 : (bs.zipWith (· ^^^ ·) k).length ≤ 16 := by simp; omega
      rw [List.take_of_length_le l1, List.drop_eq_nil_of_le l1, hn, List.append_nil]
      exact zz bs k (by omega)
    · have l1 : ((bs.take 16).zipWith (· ^^^ ·) k).length = 16 := by simp [hk]; omega
      rw [List.take_append_of_le_length (by omega), List.drop_append_of_le_length (by omega),
        List.take_of_length_le (by omega), List.drop_eq_nil_of_le (by omega), List.nil_append, ih _ _ (by simp; omega),
        zz _ _ (by simp [hk])]
      exact List.take_append_drop 16 bs

theorem gcmTag_length (key iv aad ct : List Byte) (h : key.length = 32) :
    (gcmTag (roundKeys (natBytes key)) iv aad ct).length = 16 := by
  unfold gcmTag
  simp [aesBlock_length (natBytes key) _ (by simpa [natBytes] using h)]

theorem gcmSeal_length (key iv aad pt : List Byte) (h : key.length = 32) : (gcmSeal key iv aad pt).length = pt.length + 16 := by
  unfold gcmSeal
  simp only [List.length_append, gcmTag_length key _ _ _ h]
  rw [ctrRun_length _ (fun b => aesBlock_length (natBytes key) b (by simpa [natBytes] using h)) _ _ _ _ (by omega)]

/-- Opening under the key, nonce and associated data of the sealing gives the plaintext. -/
theorem gcmOpen_gcmSeal (key iv aad pt : List Byte) (h : key.length = 32) : gcmOpen key iv aad (gcmSeal key iv aad pt) = some pt := by
  have hl := gcmSeal_length key iv aad pt h
  have hb : ∀ b, (aesBlock (roundKeys (natBytes key)) b).length = 16 :=
    fun b => aesBlock_length (natBytes key) b (by simpa [natBytes] using h)
  have hc := ctrRun_length _ hb iv ((pt.length + 15) / 16) 2 pt (by omega)
  unfold gcmOpen
  rw [hl]
  have : ¬ pt.length + 16 < 16 := by omega
  simp only [this, if_false, Nat.add_sub_cancel]
  unfold gcmSeal
  simp only []
  have ht := gcmTag_length key iv aad (ctrRun (roundKeys (natBytes key)) iv ((pt.length + 15) / 16) 2 pt) h
  have hr := ctrRun_ctrRun _ hb iv ((pt.length + 15) / 16) 2 pt (by omega)
  generalize hx : ctrRun (roundKeys (natBytes key)) iv ((pt.length + 15) / 16) 2 pt = ct at hc ht hr
  have e1 : ∀ g : List Byte, (ct ++ g).take pt.length = ct := by intro g; rw [← hc]; exact List.take_left
  have e2 : ∀ g : List Byte, (ct ++ g).drop pt.length = g := by intro g; rw [← hc]; exact List.drop_left
  rw [e1, e2]
  simp only [if_true, Option.some.injEq, hc]
  exact hr

end Sys2Proof.Machine
end

