-- ==== Sys2Proof/Laws/State.lean ====
section
/-! SUPPORT. What the shared updates of the state leave: one lemma per update and field. -/

namespace Sys2Proof.Machine

@[simp] theorem State.setTile_pending (s : State) (k : Nat) (x : TileState) : (s.setTile k x).pending = s.pending := rfl
@[simp] theorem State.setTile_fuses (s : State) (k : Nat) (x : TileState) : (s.setTile k x).fuses = s.fuses := rfl
@[simp] theorem State.setTile_geom (s : State) (k : Nat) (x : TileState) : (s.setTile k x).geom = s.geom := rfl
@[simp] theorem State.setTile_parts (s : State) (k : Nat) (x : TileState) : (s.setTile k x).parts = s.parts := rfl
@[simp] theorem State.setTile_journal (s : State) (k : Nat) (x : TileState) : (s.setTile k x).journal = s.journal := rfl
@[simp] theorem State.setTile_mesh (s : State) (k : Nat) (x : TileState) : (s.setTile k x).mesh = s.mesh := rfl
@[simp] theorem State.setTile_hbm (s : State) (k : Nat) (x : TileState) : (s.setTile k x).hbm = s.hbm := rfl
@[simp] theorem State.setTile_trib (s : State) (k : Nat) (x : TileState) : (s.setTile k x).trib = s.trib := rfl
@[simp] theorem State.setTile_host (s : State) (k : Nat) (x : TileState) : (s.setTile k x).host = s.host := rfl
@[simp] theorem State.setTile_firm (s : State) (k : Nat) (x : TileState) : (s.setTile k x).firm = s.firm := rfl
@[simp] theorem State.setTile_trust (s : State) (k : Nat) (x : TileState) : (s.setTile k x).trust = s.trust := rfl
@[simp] theorem State.setTile_ent (s : State) (k : Nat) (x : TileState) : (s.setTile k x).ent = s.ent := rfl
@[simp] theorem State.setTile_err (s : State) (k : Nat) (x : TileState) : (s.setTile k x).err = s.err := rfl
@[simp] theorem State.setTile_power (s : State) (k : Nat) (x : TileState) : (s.setTile k x).power = s.power := rfl
@[simp] theorem State.setTile_clock (s : State) (k : Nat) (x : TileState) : (s.setTile k x).clock = s.clock := rfl
@[simp] theorem State.setTile_panelNo (s : State) (k : Nat) (x : TileState) : (s.setTile k x).panelNo = s.panelNo := rfl
@[simp] theorem State.setTile_readOut (s : State) (k : Nat) (x : TileState) : (s.setTile k x).readOut = s.readOut := rfl
@[simp] theorem State.setTile_free (s : State) (k : Nat) (x : TileState) : (s.setTile k x).free = s.free := rfl
@[simp] theorem State.setTile_resetReq (s : State) (k : Nat) (x : TileState) : (s.setTile k x).resetReq = s.resetReq := rfl

@[simp] theorem State.updTile_pending (s : State) (k : Nat) (f : TileState → TileState) : (s.updTile k f).pending = s.pending := rfl
@[simp] theorem State.updTile_fuses (s : State) (k : Nat) (f : TileState → TileState) : (s.updTile k f).fuses = s.fuses := rfl
@[simp] theorem State.updTile_geom (s : State) (k : Nat) (f : TileState → TileState) : (s.updTile k f).geom = s.geom := rfl
@[simp] theorem State.updTile_parts (s : State) (k : Nat) (f : TileState → TileState) : (s.updTile k f).parts = s.parts := rfl
@[simp] theorem State.updTile_journal (s : State) (k : Nat) (f : TileState → TileState) : (s.updTile k f).journal = s.journal := rfl
@[simp] theorem State.updTile_mesh (s : State) (k : Nat) (f : TileState → TileState) : (s.updTile k f).mesh = s.mesh := rfl
@[simp] theorem State.updTile_hbm (s : State) (k : Nat) (f : TileState → TileState) : (s.updTile k f).hbm = s.hbm := rfl
@[simp] theorem State.updTile_trib (s : State) (k : Nat) (f : TileState → TileState) : (s.updTile k f).trib = s.trib := rfl
@[simp] theorem State.updTile_host (s : State) (k : Nat) (f : TileState → TileState) : (s.updTile k f).host = s.host := rfl
@[simp] theorem State.updTile_firm (s : State) (k : Nat) (f : TileState → TileState) : (s.updTile k f).firm = s.firm := rfl
@[simp] theorem State.updTile_trust (s : State) (k : Nat) (f : TileState → TileState) : (s.updTile k f).trust = s.trust := rfl
@[simp] theorem State.updTile_ent (s : State) (k : Nat) (f : TileState → TileState) : (s.updTile k f).ent = s.ent := rfl
@[simp] theorem State.updTile_err (s : State) (k : Nat) (f : TileState → TileState) : (s.updTile k f).err = s.err := rfl
@[simp] theorem State.updTile_power (s : State) (k : Nat) (f : TileState → TileState) : (s.updTile k f).power = s.power := rfl
@[simp] theorem State.updTile_clock (s : State) (k : Nat) (f : TileState → TileState) : (s.updTile k f).clock = s.clock := rfl
@[simp] theorem State.updTile_panelNo (s : State) (k : Nat) (f : TileState → TileState) : (s.updTile k f).panelNo = s.panelNo := rfl
@[simp] theorem State.updTile_readOut (s : State) (k : Nat) (f : TileState → TileState) : (s.updTile k f).readOut = s.readOut := rfl
@[simp] theorem State.updTile_free (s : State) (k : Nat) (f : TileState → TileState) : (s.updTile k f).free = s.free := rfl
@[simp] theorem State.updTile_resetReq (s : State) (k : Nat) (f : TileState → TileState) : (s.updTile k f).resetReq = s.resetReq := rfl

@[simp] theorem State.setPart_pending (s : State) (p : Nat) (x : Part) : (s.setPart p x).pending = s.pending := rfl
@[simp] theorem State.setPart_fuses (s : State) (p : Nat) (x : Part) : (s.setPart p x).fuses = s.fuses := rfl
@[simp] theorem State.setPart_geom (s : State) (p : Nat) (x : Part) : (s.setPart p x).geom = s.geom := rfl
@[simp] theorem State.setPart_tiles (s : State) (p : Nat) (x : Part) : (s.setPart p x).tiles = s.tiles := rfl
@[simp] theorem State.setPart_journal (s : State) (p : Nat) (x : Part) : (s.setPart p x).journal = s.journal := rfl
@[simp] theorem State.setPart_mesh (s : State) (p : Nat) (x : Part) : (s.setPart p x).mesh = s.mesh := rfl
@[simp] theorem State.setPart_hbm (s : State) (p : Nat) (x : Part) : (s.setPart p x).hbm = s.hbm := rfl
@[simp] theorem State.setPart_trib (s : State) (p : Nat) (x : Part) : (s.setPart p x).trib = s.trib := rfl
@[simp] theorem State.setPart_host (s : State) (p : Nat) (x : Part) : (s.setPart p x).host = s.host := rfl
@[simp] theorem State.setPart_firm (s : State) (p : Nat) (x : Part) : (s.setPart p x).firm = s.firm := rfl
@[simp] theorem State.setPart_trust (s : State) (p : Nat) (x : Part) : (s.setPart p x).trust = s.trust := rfl
@[simp] theorem State.setPart_ent (s : State) (p : Nat) (x : Part) : (s.setPart p x).ent = s.ent := rfl
@[simp] theorem State.setPart_err (s : State) (p : Nat) (x : Part) : (s.setPart p x).err = s.err := rfl
@[simp] theorem State.setPart_power (s : State) (p : Nat) (x : Part) : (s.setPart p x).power = s.power := rfl
@[simp] theorem State.setPart_clock (s : State) (p : Nat) (x : Part) : (s.setPart p x).clock = s.clock := rfl
@[simp] theorem State.setPart_panelNo (s : State) (p : Nat) (x : Part) : (s.setPart p x).panelNo = s.panelNo := rfl
@[simp] theorem State.setPart_readOut (s : State) (p : Nat) (x : Part) : (s.setPart p x).readOut = s.readOut := rfl
@[simp] theorem State.setPart_free (s : State) (p : Nat) (x : Part) : (s.setPart p x).free = s.free := rfl
@[simp] theorem State.setPart_resetReq (s : State) (p : Nat) (x : Part) : (s.setPart p x).resetReq = s.resetReq := rfl

@[simp] theorem State.updPart_pending (s : State) (p : Nat) (f : Part → Part) : (s.updPart p f).pending = s.pending := rfl
@[simp] theorem State.updPart_fuses (s : State) (p : Nat) (f : Part → Part) : (s.updPart p f).fuses = s.fuses := rfl
@[simp] theorem State.updPart_geom (s : State) (p : Nat) (f : Part → Part) : (s.updPart p f).geom = s.geom := rfl
@[simp] theorem State.updPart_tiles (s : State) (p : Nat) (f : Part → Part) : (s.updPart p f).tiles = s.tiles := rfl
@[simp] theorem State.updPart_journal (s : State) (p : Nat) (f : Part → Part) : (s.updPart p f).journal = s.journal := rfl
@[simp] theorem State.updPart_mesh (s : State) (p : Nat) (f : Part → Part) : (s.updPart p f).mesh = s.mesh := rfl
@[simp] theorem State.updPart_hbm (s : State) (p : Nat) (f : Part → Part) : (s.updPart p f).hbm = s.hbm := rfl
@[simp] theorem State.updPart_trib (s : State) (p : Nat) (f : Part → Part) : (s.updPart p f).trib = s.trib := rfl
@[simp] theorem State.updPart_host (s : State) (p : Nat) (f : Part → Part) : (s.updPart p f).host = s.host := rfl
@[simp] theorem State.updPart_firm (s : State) (p : Nat) (f : Part → Part) : (s.updPart p f).firm = s.firm := rfl
@[simp] theorem State.updPart_trust (s : State) (p : Nat) (f : Part → Part) : (s.updPart p f).trust = s.trust := rfl
@[simp] theorem State.updPart_ent (s : State) (p : Nat) (f : Part → Part) : (s.updPart p f).ent = s.ent := rfl
@[simp] theorem State.updPart_err (s : State) (p : Nat) (f : Part → Part) : (s.updPart p f).err = s.err := rfl
@[simp] theorem State.updPart_power (s : State) (p : Nat) (f : Part → Part) : (s.updPart p f).power = s.power := rfl
@[simp] theorem State.updPart_clock (s : State) (p : Nat) (f : Part → Part) : (s.updPart p f).clock = s.clock := rfl
@[simp] theorem State.updPart_panelNo (s : State) (p : Nat) (f : Part → Part) : (s.updPart p f).panelNo = s.panelNo := rfl
@[simp] theorem State.updPart_readOut (s : State) (p : Nat) (f : Part → Part) : (s.updPart p f).readOut = s.readOut := rfl
@[simp] theorem State.updPart_free (s : State) (p : Nat) (f : Part → Part) : (s.updPart p f).free = s.free := rfl
@[simp] theorem State.updPart_resetReq (s : State) (p : Nat) (f : Part → Part) : (s.updPart p f).resetReq = s.resetReq := rfl

@[simp] theorem State.updRun_pending (s : State) (p : Nat) (f : RunJob → RunJob) : (s.updRun p f).pending = s.pending := rfl
@[simp] theorem State.updRun_fuses (s : State) (p : Nat) (f : RunJob → RunJob) : (s.updRun p f).fuses = s.fuses := rfl
@[simp] theorem State.updRun_geom (s : State) (p : Nat) (f : RunJob → RunJob) : (s.updRun p f).geom = s.geom := rfl
@[simp] theorem State.updRun_tiles (s : State) (p : Nat) (f : RunJob → RunJob) : (s.updRun p f).tiles = s.tiles := rfl
@[simp] theorem State.updRun_journal (s : State) (p : Nat) (f : RunJob → RunJob) : (s.updRun p f).journal = s.journal := rfl
@[simp] theorem State.updRun_mesh (s : State) (p : Nat) (f : RunJob → RunJob) : (s.updRun p f).mesh = s.mesh := rfl
@[simp] theorem State.updRun_hbm (s : State) (p : Nat) (f : RunJob → RunJob) : (s.updRun p f).hbm = s.hbm := rfl
@[simp] theorem State.updRun_trib (s : State) (p : Nat) (f : RunJob → RunJob) : (s.updRun p f).trib = s.trib := rfl
@[simp] theorem State.updRun_host (s : State) (p : Nat) (f : RunJob → RunJob) : (s.updRun p f).host = s.host := rfl
@[simp] theorem State.updRun_firm (s : State) (p : Nat) (f : RunJob → RunJob) : (s.updRun p f).firm = s.firm := rfl
@[simp] theorem State.updRun_trust (s : State) (p : Nat) (f : RunJob → RunJob) : (s.updRun p f).trust = s.trust := rfl
@[simp] theorem State.updRun_ent (s : State) (p : Nat) (f : RunJob → RunJob) : (s.updRun p f).ent = s.ent := rfl
@[simp] theorem State.updRun_err (s : State) (p : Nat) (f : RunJob → RunJob) : (s.updRun p f).err = s.err := rfl
@[simp] theorem State.updRun_power (s : State) (p : Nat) (f : RunJob → RunJob) : (s.updRun p f).power = s.power := rfl
@[simp] theorem State.updRun_clock (s : State) (p : Nat) (f : RunJob → RunJob) : (s.updRun p f).clock = s.clock := rfl
@[simp] theorem State.updRun_panelNo (s : State) (p : Nat) (f : RunJob → RunJob) : (s.updRun p f).panelNo = s.panelNo := rfl
@[simp] theorem State.updRun_readOut (s : State) (p : Nat) (f : RunJob → RunJob) : (s.updRun p f).readOut = s.readOut := rfl
@[simp] theorem State.updRun_free (s : State) (p : Nat) (f : RunJob → RunJob) : (s.updRun p f).free = s.free := rfl
@[simp] theorem State.updRun_resetReq (s : State) (p : Nat) (f : RunJob → RunJob) : (s.updRun p f).resetReq = s.resetReq := rfl

@[simp] theorem State.putWire_pending (s : State) (w : VWire) : (s.putWire w).pending = s.pending := rfl
@[simp] theorem State.putWire_fuses (s : State) (w : VWire) : (s.putWire w).fuses = s.fuses := rfl
@[simp] theorem State.putWire_geom (s : State) (w : VWire) : (s.putWire w).geom = s.geom := rfl
@[simp] theorem State.putWire_tiles (s : State) (w : VWire) : (s.putWire w).tiles = s.tiles := rfl
@[simp] theorem State.putWire_parts (s : State) (w : VWire) : (s.putWire w).parts = s.parts := rfl
@[simp] theorem State.putWire_journal (s : State) (w : VWire) : (s.putWire w).journal = s.journal := rfl
@[simp] theorem State.putWire_mesh (s : State) (w : VWire) : (s.putWire w).mesh = s.mesh := rfl
@[simp] theorem State.putWire_hbm (s : State) (w : VWire) : (s.putWire w).hbm = s.hbm := rfl
@[simp] theorem State.putWire_trib (s : State) (w : VWire) : (s.putWire w).trib = s.trib := rfl
@[simp] theorem State.putWire_firm (s : State) (w : VWire) : (s.putWire w).firm = s.firm := rfl
@[simp] theorem State.putWire_trust (s : State) (w : VWire) : (s.putWire w).trust = s.trust := rfl
@[simp] theorem State.putWire_ent (s : State) (w : VWire) : (s.putWire w).ent = s.ent := rfl
@[simp] theorem State.putWire_err (s : State) (w : VWire) : (s.putWire w).err = s.err := rfl
@[simp] theorem State.putWire_power (s : State) (w : VWire) : (s.putWire w).power = s.power := rfl
@[simp] theorem State.putWire_clock (s : State) (w : VWire) : (s.putWire w).clock = s.clock := rfl
@[simp] theorem State.putWire_panelNo (s : State) (w : VWire) : (s.putWire w).panelNo = s.panelNo := rfl
@[simp] theorem State.putWire_readOut (s : State) (w : VWire) : (s.putWire w).readOut = s.readOut := rfl
@[simp] theorem State.putWire_free (s : State) (w : VWire) : (s.putWire w).free = s.free := rfl
@[simp] theorem State.putWire_resetReq (s : State) (w : VWire) : (s.putWire w).resetReq = s.resetReq := rfl

@[simp] theorem State.updBox_pending (s : State) (m : Nat) (f : Mailbox → Mailbox) : (s.updBox m f).pending = s.pending := rfl
@[simp] theorem State.updBox_fuses (s : State) (m : Nat) (f : Mailbox → Mailbox) : (s.updBox m f).fuses = s.fuses := rfl
@[simp] theorem State.updBox_geom (s : State) (m : Nat) (f : Mailbox → Mailbox) : (s.updBox m f).geom = s.geom := rfl
@[simp] theorem State.updBox_tiles (s : State) (m : Nat) (f : Mailbox → Mailbox) : (s.updBox m f).tiles = s.tiles := rfl
@[simp] theorem State.updBox_parts (s : State) (m : Nat) (f : Mailbox → Mailbox) : (s.updBox m f).parts = s.parts := rfl
@[simp] theorem State.updBox_journal (s : State) (m : Nat) (f : Mailbox → Mailbox) : (s.updBox m f).journal = s.journal := rfl
@[simp] theorem State.updBox_mesh (s : State) (m : Nat) (f : Mailbox → Mailbox) : (s.updBox m f).mesh = s.mesh := rfl
@[simp] theorem State.updBox_hbm (s : State) (m : Nat) (f : Mailbox → Mailbox) : (s.updBox m f).hbm = s.hbm := rfl
@[simp] theorem State.updBox_trib (s : State) (m : Nat) (f : Mailbox → Mailbox) : (s.updBox m f).trib = s.trib := rfl
@[simp] theorem State.updBox_firm (s : State) (m : Nat) (f : Mailbox → Mailbox) : (s.updBox m f).firm = s.firm := rfl
@[simp] theorem State.updBox_trust (s : State) (m : Nat) (f : Mailbox → Mailbox) : (s.updBox m f).trust = s.trust := rfl
@[simp] theorem State.updBox_ent (s : State) (m : Nat) (f : Mailbox → Mailbox) : (s.updBox m f).ent = s.ent := rfl
@[simp] theorem State.updBox_err (s : State) (m : Nat) (f : Mailbox → Mailbox) : (s.updBox m f).err = s.err := rfl
@[simp] theorem State.updBox_power (s : State) (m : Nat) (f : Mailbox → Mailbox) : (s.updBox m f).power = s.power := rfl
@[simp] theorem State.updBox_clock (s : State) (m : Nat) (f : Mailbox → Mailbox) : (s.updBox m f).clock = s.clock := rfl
@[simp] theorem State.updBox_panelNo (s : State) (m : Nat) (f : Mailbox → Mailbox) : (s.updBox m f).panelNo = s.panelNo := rfl
@[simp] theorem State.updBox_readOut (s : State) (m : Nat) (f : Mailbox → Mailbox) : (s.updBox m f).readOut = s.readOut := rfl
@[simp] theorem State.updBox_free (s : State) (m : Nat) (f : Mailbox → Mailbox) : (s.updBox m f).free = s.free := rfl
@[simp] theorem State.updBox_resetReq (s : State) (m : Nat) (f : Mailbox → Mailbox) : (s.updBox m f).resetReq = s.resetReq := rfl

@[simp] theorem State.settle_pending (s : State) (r : Req) : (s.settle r).pending = s.pending := rfl
@[simp] theorem State.settle_fuses (s : State) (r : Req) : (s.settle r).fuses = s.fuses := rfl
@[simp] theorem State.settle_geom (s : State) (r : Req) : (s.settle r).geom = s.geom := rfl
@[simp] theorem State.settle_tiles (s : State) (r : Req) : (s.settle r).tiles = s.tiles := rfl
@[simp] theorem State.settle_parts (s : State) (r : Req) : (s.settle r).parts = s.parts := rfl
@[simp] theorem State.settle_journal (s : State) (r : Req) : (s.settle r).journal = s.journal := rfl
@[simp] theorem State.settle_mesh (s : State) (r : Req) : (s.settle r).mesh = s.mesh := rfl
@[simp] theorem State.settle_hbm (s : State) (r : Req) : (s.settle r).hbm = s.hbm := rfl
@[simp] theorem State.settle_trib (s : State) (r : Req) : (s.settle r).trib = s.trib := rfl
@[simp] theorem State.settle_firm (s : State) (r : Req) : (s.settle r).firm = s.firm := rfl
@[simp] theorem State.settle_trust (s : State) (r : Req) : (s.settle r).trust = s.trust := rfl
@[simp] theorem State.settle_ent (s : State) (r : Req) : (s.settle r).ent = s.ent := rfl
@[simp] theorem State.settle_err (s : State) (r : Req) : (s.settle r).err = s.err := rfl
@[simp] theorem State.settle_power (s : State) (r : Req) : (s.settle r).power = s.power := rfl
@[simp] theorem State.settle_clock (s : State) (r : Req) : (s.settle r).clock = s.clock := rfl
@[simp] theorem State.settle_panelNo (s : State) (r : Req) : (s.settle r).panelNo = s.panelNo := rfl
@[simp] theorem State.settle_readOut (s : State) (r : Req) : (s.settle r).readOut = s.readOut := rfl
@[simp] theorem State.settle_free (s : State) (r : Req) : (s.settle r).free = s.free := rfl
@[simp] theorem State.settle_resetReq (s : State) (r : Req) : (s.settle r).resetReq = s.resetReq := rfl

@[simp] theorem State.updDie_pending (s : State) (d : Nat) (f : DiePower → DiePower) : (s.updDie d f).pending = s.pending := rfl
@[simp] theorem State.updDie_fuses (s : State) (d : Nat) (f : DiePower → DiePower) : (s.updDie d f).fuses = s.fuses := rfl
@[simp] theorem State.updDie_geom (s : State) (d : Nat) (f : DiePower → DiePower) : (s.updDie d f).geom = s.geom := rfl
@[simp] theorem State.updDie_tiles (s : State) (d : Nat) (f : DiePower → DiePower) : (s.updDie d f).tiles = s.tiles := rfl
@[simp] theorem State.updDie_parts (s : State) (d : Nat) (f : DiePower → DiePower) : (s.updDie d f).parts = s.parts := rfl
@[simp] theorem State.updDie_journal (s : State) (d : Nat) (f : DiePower → DiePower) : (s.updDie d f).journal = s.journal := rfl
@[simp] theorem State.updDie_mesh (s : State) (d : Nat) (f : DiePower → DiePower) : (s.updDie d f).mesh = s.mesh := rfl
@[simp] theorem State.updDie_hbm (s : State) (d : Nat) (f : DiePower → DiePower) : (s.updDie d f).hbm = s.hbm := rfl
@[simp] theorem State.updDie_trib (s : State) (d : Nat) (f : DiePower → DiePower) : (s.updDie d f).trib = s.trib := rfl
@[simp] theorem State.updDie_host (s : State) (d : Nat) (f : DiePower → DiePower) : (s.updDie d f).host = s.host := rfl
@[simp] theorem State.updDie_firm (s : State) (d : Nat) (f : DiePower → DiePower) : (s.updDie d f).firm = s.firm := rfl
@[simp] theorem State.updDie_trust (s : State) (d : Nat) (f : DiePower → DiePower) : (s.updDie d f).trust = s.trust := rfl
@[simp] theorem State.updDie_ent (s : State) (d : Nat) (f : DiePower → DiePower) : (s.updDie d f).ent = s.ent := rfl
@[simp] theorem State.updDie_err (s : State) (d : Nat) (f : DiePower → DiePower) : (s.updDie d f).err = s.err := rfl
@[simp] theorem State.updDie_clock (s : State) (d : Nat) (f : DiePower → DiePower) : (s.updDie d f).clock = s.clock := rfl
@[simp] theorem State.updDie_panelNo (s : State) (d : Nat) (f : DiePower → DiePower) : (s.updDie d f).panelNo = s.panelNo := rfl
@[simp] theorem State.updDie_readOut (s : State) (d : Nat) (f : DiePower → DiePower) : (s.updDie d f).readOut = s.readOut := rfl
@[simp] theorem State.updDie_free (s : State) (d : Nat) (f : DiePower → DiePower) : (s.updDie d f).free = s.free := rfl
@[simp] theorem State.updDie_resetReq (s : State) (d : Nat) (f : DiePower → DiePower) : (s.updDie d f).resetReq = s.resetReq := rfl

@[simp] theorem State.updRouter_pending (s : State) (x y : Nat) (f : Router → Router) : (s.updRouter x y f).pending = s.pending := rfl
@[simp] theorem State.updRouter_fuses (s : State) (x y : Nat) (f : Router → Router) : (s.updRouter x y f).fuses = s.fuses := rfl
@[simp] theorem State.updRouter_geom (s : State) (x y : Nat) (f : Router → Router) : (s.updRouter x y f).geom = s.geom := rfl
@[simp] theorem State.updRouter_tiles (s : State) (x y : Nat) (f : Router → Router) : (s.updRouter x y f).tiles = s.tiles := rfl
@[simp] theorem State.updRouter_parts (s : State) (x y : Nat) (f : Router → Router) : (s.updRouter x y f).parts = s.parts := rfl
@[simp] theorem State.updRouter_journal (s : State) (x y : Nat) (f : Router → Router) : (s.updRouter x y f).journal = s.journal := rfl
@[simp] theorem State.updRouter_hbm (s : State) (x y : Nat) (f : Router → Router) : (s.updRouter x y f).hbm = s.hbm := rfl
@[simp] theorem State.updRouter_trib (s : State) (x y : Nat) (f : Router → Router) : (s.updRouter x y f).trib = s.trib := rfl
@[simp] theorem State.updRouter_host (s : State) (x y : Nat) (f : Router → Router) : (s.updRouter x y f).host = s.host := rfl
@[simp] theorem State.updRouter_firm (s : State) (x y : Nat) (f : Router → Router) : (s.updRouter x y f).firm = s.firm := rfl
@[simp] theorem State.updRouter_trust (s : State) (x y : Nat) (f : Router → Router) : (s.updRouter x y f).trust = s.trust := rfl
@[simp] theorem State.updRouter_ent (s : State) (x y : Nat) (f : Router → Router) : (s.updRouter x y f).ent = s.ent := rfl
@[simp] theorem State.updRouter_err (s : State) (x y : Nat) (f : Router → Router) : (s.updRouter x y f).err = s.err := rfl
@[simp] theorem State.updRouter_power (s : State) (x y : Nat) (f : Router → Router) : (s.updRouter x y f).power = s.power := rfl
@[simp] theorem State.updRouter_clock (s : State) (x y : Nat) (f : Router → Router) : (s.updRouter x y f).clock = s.clock := rfl
@[simp] theorem State.updRouter_panelNo (s : State) (x y : Nat) (f : Router → Router) : (s.updRouter x y f).panelNo = s.panelNo := rfl
@[simp] theorem State.updRouter_readOut (s : State) (x y : Nat) (f : Router → Router) : (s.updRouter x y f).readOut = s.readOut := rfl
@[simp] theorem State.updRouter_free (s : State) (x y : Nat) (f : Router → Router) : (s.updRouter x y f).free = s.free := rfl
@[simp] theorem State.updRouter_resetReq (s : State) (x y : Nat) (f : Router → Router) : (s.updRouter x y f).resetReq = s.resetReq := rfl

@[simp] theorem State.fly_pending (s : State) (x y : Nat) (o : Out) (f : Flit) : (s.fly x y o f).pending = s.pending := rfl
@[simp] theorem State.fly_fuses (s : State) (x y : Nat) (o : Out) (f : Flit) : (s.fly x y o f).fuses = s.fuses := rfl
@[simp] theorem State.fly_geom (s : State) (x y : Nat) (o : Out) (f : Flit) : (s.fly x y o f).geom = s.geom := rfl
@[simp] theorem State.fly_tiles (s : State) (x y : Nat) (o : Out) (f : Flit) : (s.fly x y o f).tiles = s.tiles := rfl
@[simp] theorem State.fly_parts (s : State) (x y : Nat) (o : Out) (f : Flit) : (s.fly x y o f).parts = s.parts := rfl
@[simp] theorem State.fly_journal (s : State) (x y : Nat) (o : Out) (f : Flit) : (s.fly x y o f).journal = s.journal := rfl
@[simp] theorem State.fly_hbm (s : State) (x y : Nat) (o : Out) (f : Flit) : (s.fly x y o f).hbm = s.hbm := rfl
@[simp] theorem State.fly_trib (s : State) (x y : Nat) (o : Out) (f : Flit) : (s.fly x y o f).trib = s.trib := rfl
@[simp] theorem State.fly_host (s : State) (x y : Nat) (o : Out) (f : Flit) : (s.fly x y o f).host = s.host := rfl
@[simp] theorem State.fly_firm (s : State) (x y : Nat) (o : Out) (f : Flit) : (s.fly x y o f).firm = s.firm := rfl
@[simp] theorem State.fly_trust (s : State) (x y : Nat) (o : Out) (f : Flit) : (s.fly x y o f).trust = s.trust := rfl
@[simp] theorem State.fly_ent (s : State) (x y : Nat) (o : Out) (f : Flit) : (s.fly x y o f).ent = s.ent := rfl
@[simp] theorem State.fly_err (s : State) (x y : Nat) (o : Out) (f : Flit) : (s.fly x y o f).err = s.err := rfl
@[simp] theorem State.fly_power (s : State) (x y : Nat) (o : Out) (f : Flit) : (s.fly x y o f).power = s.power := rfl
@[simp] theorem State.fly_clock (s : State) (x y : Nat) (o : Out) (f : Flit) : (s.fly x y o f).clock = s.clock := rfl
@[simp] theorem State.fly_panelNo (s : State) (x y : Nat) (o : Out) (f : Flit) : (s.fly x y o f).panelNo = s.panelNo := rfl
@[simp] theorem State.fly_readOut (s : State) (x y : Nat) (o : Out) (f : Flit) : (s.fly x y o f).readOut = s.readOut := rfl
@[simp] theorem State.fly_free (s : State) (x y : Nat) (o : Out) (f : Flit) : (s.fly x y o f).free = s.free := rfl
@[simp] theorem State.fly_resetReq (s : State) (x y : Nat) (o : Out) (f : Flit) : (s.fly x y o f).resetReq = s.resetReq := rfl

@[simp] theorem State.land_pending (s : State) (x y : Nat) (f : Flit) : (s.land x y f).pending = s.pending := rfl
@[simp] theorem State.land_fuses (s : State) (x y : Nat) (f : Flit) : (s.land x y f).fuses = s.fuses := rfl
@[simp] theorem State.land_geom (s : State) (x y : Nat) (f : Flit) : (s.land x y f).geom = s.geom := rfl
@[simp] theorem State.land_tiles (s : State) (x y : Nat) (f : Flit) : (s.land x y f).tiles = s.tiles := rfl
@[simp] theorem State.land_parts (s : State) (x y : Nat) (f : Flit) : (s.land x y f).parts = s.parts := rfl
@[simp] theorem State.land_journal (s : State) (x y : Nat) (f : Flit) : (s.land x y f).journal = s.journal := rfl
@[simp] theorem State.land_hbm (s : State) (x y : Nat) (f : Flit) : (s.land x y f).hbm = s.hbm := rfl
@[simp] theorem State.land_trib (s : State) (x y : Nat) (f : Flit) : (s.land x y f).trib = s.trib := rfl
@[simp] theorem State.land_host (s : State) (x y : Nat) (f : Flit) : (s.land x y f).host = s.host := rfl
@[simp] theorem State.land_firm (s : State) (x y : Nat) (f : Flit) : (s.land x y f).firm = s.firm := rfl
@[simp] theorem State.land_trust (s : State) (x y : Nat) (f : Flit) : (s.land x y f).trust = s.trust := rfl
@[simp] theorem State.land_ent (s : State) (x y : Nat) (f : Flit) : (s.land x y f).ent = s.ent := rfl
@[simp] theorem State.land_err (s : State) (x y : Nat) (f : Flit) : (s.land x y f).err = s.err := rfl
@[simp] theorem State.land_power (s : State) (x y : Nat) (f : Flit) : (s.land x y f).power = s.power := rfl
@[simp] theorem State.land_clock (s : State) (x y : Nat) (f : Flit) : (s.land x y f).clock = s.clock := rfl
@[simp] theorem State.land_panelNo (s : State) (x y : Nat) (f : Flit) : (s.land x y f).panelNo = s.panelNo := rfl
@[simp] theorem State.land_readOut (s : State) (x y : Nat) (f : Flit) : (s.land x y f).readOut = s.readOut := rfl
@[simp] theorem State.land_free (s : State) (x y : Nat) (f : Flit) : (s.land x y f).free = s.free := rfl
@[simp] theorem State.land_resetReq (s : State) (x y : Nat) (f : Flit) : (s.land x y f).resetReq = s.resetReq := rfl

@[simp] theorem State.shaped_pending (s : State) (f : Fuses) (g : List Rect) : (s.shaped f g).pending = s.pending := rfl
@[simp] theorem State.shaped_tiles (s : State) (f : Fuses) (g : List Rect) : (s.shaped f g).tiles = s.tiles := rfl
@[simp] theorem State.shaped_parts (s : State) (f : Fuses) (g : List Rect) : (s.shaped f g).parts = s.parts := rfl
@[simp] theorem State.shaped_journal (s : State) (f : Fuses) (g : List Rect) : (s.shaped f g).journal = s.journal := rfl
@[simp] theorem State.shaped_mesh (s : State) (f : Fuses) (g : List Rect) : (s.shaped f g).mesh = s.mesh := rfl
@[simp] theorem State.shaped_hbm (s : State) (f : Fuses) (g : List Rect) : (s.shaped f g).hbm = s.hbm := rfl
@[simp] theorem State.shaped_trib (s : State) (f : Fuses) (g : List Rect) : (s.shaped f g).trib = s.trib := rfl
@[simp] theorem State.shaped_host (s : State) (f : Fuses) (g : List Rect) : (s.shaped f g).host = s.host := rfl
@[simp] theorem State.shaped_firm (s : State) (f : Fuses) (g : List Rect) : (s.shaped f g).firm = s.firm := rfl
@[simp] theorem State.shaped_trust (s : State) (f : Fuses) (g : List Rect) : (s.shaped f g).trust = s.trust := rfl
@[simp] theorem State.shaped_ent (s : State) (f : Fuses) (g : List Rect) : (s.shaped f g).ent = s.ent := rfl
@[simp] theorem State.shaped_err (s : State) (f : Fuses) (g : List Rect) : (s.shaped f g).err = s.err := rfl
@[simp] theorem State.shaped_power (s : State) (f : Fuses) (g : List Rect) : (s.shaped f g).power = s.power := rfl
@[simp] theorem State.shaped_clock (s : State) (f : Fuses) (g : List Rect) : (s.shaped f g).clock = s.clock := rfl
@[simp] theorem State.shaped_panelNo (s : State) (f : Fuses) (g : List Rect) : (s.shaped f g).panelNo = s.panelNo := rfl
@[simp] theorem State.shaped_readOut (s : State) (f : Fuses) (g : List Rect) : (s.shaped f g).readOut = s.readOut := rfl
@[simp] theorem State.shaped_free (s : State) (f : Fuses) (g : List Rect) : (s.shaped f g).free = s.free := rfl
@[simp] theorem State.shaped_resetReq (s : State) (f : Fuses) (g : List Rect) : (s.shaped f g).resetReq = s.resetReq := rfl

@[simp] theorem State.shaped_fuses (s : State) (f : Fuses) (g : List Rect) : (s.shaped f g).fuses = f := rfl
@[simp] theorem State.shaped_geom (s : State) (f : Fuses) (g : List Rect) : (s.shaped f g).geom = g := rfl
@[simp] theorem State.setTile_tiles (s : State) (k : Nat) (x : TileState) : (s.setTile k x).tiles = s.tiles.set k x := rfl
@[simp] theorem State.setPart_parts (s : State) (p : Nat) (x : Part) : (s.setPart p x).parts = s.parts.set p x := rfl

end Sys2Proof.Machine
end

