-- ==== Sys2Proof/Laws/Tab.lean ====
section
/-! SUPPORT. Laws of sparse tables: what a key reads as after an update. -/

namespace Sys2Proof.Machine

@[simp] theorem Tab.find_set_same {α : Type} (t : Tab α) (k : Nat) (v : α) : (t.set k v).find k = some v := by
  induction t with
  | nil => simp [Tab.set, Tab.find]
  | cons e t ih =>
    unfold Tab.set
    split
    · simp [Tab.find]
    · split
      · simp [Tab.find]
      · rename_i h _
        simp [Tab.find, h, ih]

theorem Tab.find_set_other {α : Type} (t : Tab α) {k j : Nat} (v : α) (h : j ≠ k) : (t.set k v).find j = t.find j := by
  have hk : ¬ k = j := fun e => h e.symm
  induction t with
  | nil => simp [Tab.set, Tab.find, hk]
  | cons e t ih =>
    unfold Tab.set
    split
    · rename_i he
      simp [Tab.find, he, hk]
    · split
      · simp [Tab.find, hk]
      · simp only [Tab.find, ih]

@[simp] theorem Tab.getD_set_same {α : Type} (t : Tab α) (k : Nat) (v d : α) : (t.set k v).getD k d = v := by
  simp [Tab.getD]

theorem Tab.getD_set_other {α : Type} (t : Tab α) {k j : Nat} (v d : α) (h : j ≠ k) : (t.set k v).getD j d = t.getD j d := by
  simp [Tab.getD, Tab.find_set_other t v h]

/-- Setting a key leaves whether another key has an entry. -/
theorem Tab.has_set_other {α : Type} (t : Tab α) {k j : Nat} (v : α) (h : j ≠ k) : (t.set k v).has j = t.has j := by
  simp [Tab.has, Tab.find_set_other t v h]

theorem Tab.find_update_same {α : Type} (t : Tab α) (k : Nat) (f : α → α) : (t.update k f).find k = (t.find k).map f := by
  unfold Tab.update
  split <;> simp_all

theorem Tab.find_update_other {α : Type} (t : Tab α) {k j : Nat} (f : α → α) (h : j ≠ k) : (t.update k f).find j = t.find j := by
  unfold Tab.update
  split
  · exact Tab.find_set_other t _ h
  · rfl

end Sys2Proof.Machine
end

