-- ==== Sys2Proof/Laws/Ops.lean ====
section
/-! SUPPORT. Laws of the shared operations: the end of a command, tiles, partitions, dispatch, requests and replies. -/

namespace Sys2Proof.Machine

/-! ## Tables and tiles -/

@[simp] theorem Tab.set_set {α : Type} (t : Tab α) (k : Nat) (v w : α) : (t.set k v).set k w = t.set k w := by
  induction t with
  | nil => simp [Tab.set]
  | cons e t ih =>
    by_cases h : e.1 = k
    · simp [Tab.set, h]
    · by_cases h2 : k < e.1
      · simp [Tab.set, h, h2]
      · simp [Tab.set, h, h2, ih]

@[simp] theorem State.tile_setTile (s : State) (k : Nat) (x : TileState) : (s.setTile k x).tile k = x := by
  simp [State.tile, State.setTile]

@[simp] theorem State.tile_updTile (s : State) (k : Nat) (f : TileState → TileState) : (s.updTile k f).tile k = f (s.tile k) := by
  simp [State.updTile]

@[simp] theorem State.setTile_setTile (s : State) (k : Nat) (x y : TileState) : (s.setTile k x).setTile k y = s.setTile k y := by
  simp [State.setTile]

theorem State.tile_setTile_other (s : State) {k j : Nat} (x : TileState) (h : j ≠ k) : (s.setTile k x).tile j = s.tile j := by
  simp [State.tile, State.setTile, Tab.getD_set_other s.tiles x TileState.blank h]

theorem State.tile_updTile_other (s : State) {k j : Nat} (f : TileState → TileState) (h : j ≠ k) :
    (s.updTile k f).tile j = s.tile j := State.tile_setTile_other s _ h

theorem State.part_updPart (s : State) (p : Nat) (f : Part → Part) : (s.updPart p f).part p = (s.part p).map f :=
  Tab.find_update_same s.parts p f

theorem State.part_updPart_other (s : State) {p q : Nat} (f : Part → Part) (h : q ≠ p) : (s.updPart p f).part q = s.part q :=
  Tab.find_update_other s.parts f h

/-! ## The end of a command -/

/-- With nothing due and no reset called for, the end of a command changes nothing. -/
theorem State.settleAll_quiet (u : State) (h : u.err.due = []) (hr : u.resetReq = none) : u.settleAll = u := by
  simp [State.settleAll, State.runDue, h, hr]

/-- The end of a command that leaves the queue, the fuses and the rectangles as they are. -/
theorem finish_same (s u : State) (h : u.err.due = []) (hr : u.resetReq = none) (hp : u.power.inReset = false)
    (h1 : u.pending = s.pending) (h2 : u.fuses = s.fuses) (h3 : u.geom = s.geom) : finish s u = u := by
  simp only [finish, State.settleAll_quiet u h hr, hp, Bool.false_eq_true, if_false]
  cases u
  simp_all

theorem finish_quiet (s u : State) (h : u.err.due = []) (hr : u.resetReq = none) (hp : u.power.inReset = false) :
    finish s u = { u with pending := s.pending, fuses := s.fuses, geom := s.geom } := by
  simp [finish, State.settleAll_quiet u h hr, hp]

theorem finishGeom_quiet (s u : State) (h : u.err.due = []) (hr : u.resetReq = none) (hp : u.power.inReset = false) :
    finishGeom s u = { u with pending := s.pending, fuses := s.fuses } := by
  simp [finishGeom, State.settleAll_quiet u h hr, hp]

/-- The queue and the fuses are those before the command. -/
@[simp] theorem finish_pending (s u : State) : (finish s u).pending = s.pending := rfl
@[simp] theorem finish_fuses (s u : State) : (finish s u).fuses = s.fuses := rfl
@[simp] theorem finishGeom_pending (s u : State) : (finishGeom s u).pending = s.pending := rfl
@[simp] theorem finishGeom_fuses (s u : State) : (finishGeom s u).fuses = s.fuses := rfl

/-! ## Dispatch -/

theorem State.wakeTile_eq (s : State) (k : Nat) : s.wakeTile k = { s with power := (s.wakeTile k).power } := by
  unfold State.wakeTile
  cases h : s.place (k % 48) (k / 48) with
  | none => simp
  | some q =>
    simp only []
    split <;> simp [State.updDie]

@[simp] theorem State.wakeTile_keeps_tiles (s : State) (k : Nat) : (s.wakeTile k).tiles = s.tiles := by
  rw [State.wakeTile_eq]

@[simp] theorem State.wakeTile_keeps_tile (s : State) (k j : Nat) : (s.wakeTile k).tile j = s.tile j := by
  simp [State.tile]

theorem State.wakeTile_inReset (s : State) (k : Nat) : (s.wakeTile k).power.inReset = s.power.inReset := by
  unfold State.wakeTile
  cases h : s.place (k % 48) (k / 48) with
  | none => rfl
  | some q =>
    simp only []
    split <;> simp [State.updDie]

/-- A completed instruction changes its tile alone. -/
theorem State.completed_eq (s : State) (p k iseq unit : Nat) (sum : Word) :
    s.completed p k iseq unit sum =
      if s.traceLevel p = 0 then s
      else s.setTile k (({ s.tile k with acc := (s.tile k).acc + sum } : TileState).instrEntry (s.meridian p) iseq unit sum) := rfl

/-- Waking a tile does not read tiles. -/
theorem State.wakeTile_tiles (s : State) (T : Tab TileState) (k : Nat) :
    ({ s with tiles := T } : State).wakeTile k = { s.wakeTile k with tiles := T } := by
  have hp : ({ s with tiles := T } : State).place = s.place := rfl
  unfold State.wakeTile
  rw [hp]
  cases s.place (k % 48) (k / 48) with
  | none => rfl
  | some q =>
    by_cases h : (s.power.dies.getD (dieAt q.1 q.2) DiePower.fresh).asleep = true <;>
      simp [State.diePower, State.updDie, h]

/-- What taking an instruction changes: its tile, and the gating of the tile and its die. -/
theorem State.took_eq (s : State) (p k : Nat) :
    s.took p k = { s with tiles := s.tiles.set k ((s.took p k).tile k), power := (s.wakeTile k).power } := by
  have key : ∀ (T : Tab TileState) (f : TileState → TileState),
      (({ s with tiles := T } : State).wakeTile k).updTile k f =
        { s with tiles := T.set k (f (T.getD k TileState.blank)), power := (s.wakeTile k).power } := by
    intro T f
    rw [State.wakeTile_tiles, State.wakeTile_eq s]
    rfl
  unfold State.took
  simp only [State.tile_updTile]
  by_cases h : (s.tile k).waitFerry.isSome = true
  · simp only [h, if_true, State.completed_eq]
    by_cases hl : s.traceLevel p = 0
    · simp only [hl, if_true]
      rw [show s = ({ s with tiles := s.tiles } : State) from rfl, key]
      simp [State.tile]
    · simp only [hl, if_false, State.setTile]
      rw [key]
      simp [State.tile]
  · simp only [h, if_false, Bool.false_eq_true]
    rw [show s = ({ s with tiles := s.tiles } : State) from rfl, key]
    simp [State.tile]

/-- A state with one tile and the power state replaced. -/
def State.withTile (s : State) (k : Nat) (x : TileState) (w : PowerState) : State :=
  { s with tiles := s.tiles.set k x, power := w }

theorem State.setTile_withTile (s : State) (k : Nat) (x : TileState) : s.setTile k x = s.withTile k x s.power := rfl

@[simp] theorem State.withTile_tile (s : State) (k : Nat) (x : TileState) (w : PowerState) : (s.withTile k x w).tile k = x := by
  simp [State.withTile, State.tile]

theorem State.took_withTile (s : State) (p k : Nat) : s.took p k = s.withTile k ((s.took p k).tile k) (s.wakeTile k).power :=
  State.took_eq s p k

@[simp] theorem State.withTile_updTile (s : State) (k : Nat) (x : TileState) (w : PowerState) (f : TileState → TileState) :
    (s.withTile k x w).updTile k f = s.withTile k (f x) w := by
  simp [State.updTile, State.setTile, State.withTile, State.tile]

@[simp] theorem State.withTile_setTile (s : State) (k : Nat) (x y : TileState) (w : PowerState) :
    (s.withTile k x w).setTile k y = s.withTile k y w := by
  simp [State.setTile, State.withTile]

/-- The tile after an instruction of it completes. -/
def State.ended (s : State) (p iseq unit : Nat) (sum : Word) (x : TileState) : TileState :=
  if s.traceLevel p = 0 then x
  else ({ x with acc := x.acc + sum } : TileState).instrEntry (s.meridian p) iseq unit sum

@[simp] theorem State.withTile_completed (s : State) (k : Nat) (x : TileState) (w : PowerState) (p iseq unit : Nat) (sum : Word) :
    (s.withTile k x w).completed p k iseq unit sum = s.withTile k (s.ended p iseq unit sum x) w := by
  rw [State.completed_eq]
  have h1 : (s.withTile k x w).traceLevel p = s.traceLevel p := rfl
  have h2 : (s.withTile k x w).meridian p = s.meridian p := rfl
  rw [h1, h2]
  unfold State.ended
  split
  · rfl
  · simp

@[simp] theorem State.withTile_contrib (s : State) (k : Nat) (x : TileState) (w : PowerState) (p t unit iseq base mark : Nat)
    (ws : List (Nat × List Byte)) : (s.withTile k x w).contrib p t unit iseq base mark ws = s.contrib p t unit iseq base mark ws := rfl

/-- The end of a command that has replaced one tile of a calm panel. -/
theorem finish_withTile (s : State) (h : s.Calm) (k : Nat) (x : TileState) (w : PowerState) (hw : w.inReset = false) :
    finish s (s.withTile k x w) = s.withTile k x w :=
  finish_quiet s _ h.due h.reset hw

theorem State.wakeTile_up (s : State) (h : s.Calm) (k : Nat) : (s.wakeTile k).power.inReset = false := by
  rw [State.wakeTile_inReset, h.up]

theorem State.withTile_only (s : State) (k : Nat) (x : TileState) : s.OnlyTile (s.withTile k x (s.wakeTile k).power) k := by
  simp [State.OnlyTile, State.withTile, State.tile]

theorem State.withTile_one (s : State) (k : Nat) (x : TileState) : s.OneTile (s.withTile k x s.power) k := by
  simp [State.OneTile, State.withTile, State.tile]

/-! ### What the trace unit leaves of a tile -/

theorem TileState.instrEntry_eq (x : TileState) (m : Word) (iseq unit : Nat) (sum : Word) :
    x.instrEntry m iseq unit sum =
      { x with sram := (x.instrEntry m iseq unit sum).sram, eyepiece := (x.instrEntry m iseq unit sum).eyepiece } := by
  unfold TileState.instrEntry
  simp only []
  split <;> rfl

/-- Completion changes TILE_ACC, EYEPIECE and the rings in SRAM, nothing else. -/
theorem State.ended_eq (s : State) (p iseq unit : Nat) (sum : Word) (x : TileState) :
    s.ended p iseq unit sum x =
      { x with acc := (s.ended p iseq unit sum x).acc, sram := (s.ended p iseq unit sum x).sram,
               eyepiece := (s.ended p iseq unit sum x).eyepiece } := by
  unfold State.ended
  split
  · rfl
  · rw [TileState.instrEntry_eq]

theorem State.ended_off (s : State) (p iseq unit : Nat) (sum : Word) (x : TileState) (h : s.traceLevel p = 0) :
    s.ended p iseq unit sum x = x := by
  simp [State.ended, h]

/-- What taking its front instruction leaves of a tile. -/
theorem State.took_keeps (s : State) (p k : Nat) :
    ((s.took p k).tile k).pos = (s.tile k).pos + 1 ∧ ((s.took p k).tile k).loops = (s.tile k).loops ∧
    ((s.took p k).tile k).array = (s.tile k).array ∧ ((s.took p k).tile k).ferry = (s.tile k).ferry ∧
    ((s.took p k).tile k).waitFerry = none ∧ ((s.took p k).tile k).fp = (s.tile k).fp ∧
    ((s.took p k).tile k).seq = (s.tile k).seq ∧ ((s.took p k).tile k).chains = (s.tile k).chains ∧
    ((s.took p k).tile k).bar = (s.tile k).bar ∧ ((s.took p k).tile k).seed = (s.tile k).seed ∧
    ((s.took p k).tile k).riffleStop = (s.tile k).riffleStop := by
  unfold State.took
  simp only [State.tile_updTile, TileState.takes, State.wakeTile_keeps_tile]
  split
  · rw [State.completed_eq]
    split
    · simp [TileState.seed]
    · rw [State.tile_setTile, TileState.instrEntry_eq]; simp [TileState.seed]
  · simp [TileState.seed]

/-- Trace level 0: taking an instruction leaves SRAM as it is. -/
theorem State.took_sram (s : State) (p k : Nat) (h : s.traceLevel p = 0) : ((s.took p k).tile k).sram = (s.tile k).sram := by
  unfold State.took
  simp only [State.tile_updTile, TileState.takes, State.wakeTile_keeps_tile, State.completed_eq, h, if_true]
  split <;> rfl

/-! ## Riffle items and ACC_CTRL -/

/-- Using Riffle items changes the buffer alone. -/
theorem TileState.useItems_eq (x : TileState) (stream base lb n : Nat) :
    x.useItems stream base lb n = { x with riffleBuf := (x.useItems stream base lb n).riffleBuf } := rfl

/-- So does a drain's use of its items. -/
theorem TileState.drainItems_eq (w : DrainWords) (x : TileState) : x.drainItems w = { x with riffleBuf := (x.drainItems w).riffleBuf } := by
  unfold TileState.drainItems
  generalize List.range 64 = l
  induction l using List.reverseRecOn with
  | nil => rfl
  | append_singleton l a ih =>
    rw [List.foldl_append]
    simp only [List.foldl_cons, List.foldl_nil]
    rw [TileState.useItems_eq, ih]

/-- A write of ACC_CTRL leaves SRAM and the flags, starts no long accumulation, and keeps SU_MODE. -/
theorem ArrayFx.setCtrl_keeps (v : BitVec 32) (x : ArrayFx) :
    (x.setCtrl v).sram = x.sram ∧ (x.setCtrl v).flags = x.flags ∧ (x.setCtrl v).arr.tooLong = x.arr.tooLong ∧
      (x.setCtrl v).arr.ctrl = (v &&& 0xFFFFFFEF) ||| (x.arr.ctrl &&& 0x10) := by
  unfold ArrayFx.setCtrl
  simp only []
  split
  · simp
  · split <;> simp [ArrayFx.watchSlot]

/-! ## Requests -/

/-- A request frame that is served reaches its handler. -/
theorem State.vorlaIn_served (s : State) (op : Nat) (f : VFrame) (handle : Req → State → State) (h : s.Serves op f) :
    s.vorlaIn op f handle = handle (f.request op) (s.taken op f) := by
  have ha := h.awake
  unfold State.vorlaIn
  simp only [h.front, h.check, Bool.not_true, Bool.false_eq_true, if_false]
  unfold State.taken at ha
  simp only [ha, Bool.false_eq_true, if_false]
  rfl

end Sys2Proof.Machine
end

