-- ==== Sys2Proof/Laws/Vorla.lean ====
section
/-! SUPPORT. Laws of mailboxes and frames: what sending, answering and accepting a frame leaves of the panel. -/

namespace Sys2Proof.Machine

@[simp] theorem State.box_updBox (s : State) (m : Nat) (f : Mailbox → Mailbox) : (s.updBox m f).box m = f (s.box m) := by
  simp [State.box, State.updBox]

theorem State.box_updBox_other (s : State) {m n : Nat} (f : Mailbox → Mailbox) (h : n ≠ m) : (s.updBox m f).box n = s.box n := by
  simp [State.box, State.updBox, Tab.getD_set_other s.host.boxes _ _ h]

@[simp] theorem State.box_putWire (s : State) (w : VWire) (m : Nat) : (s.putWire w).box m = s.box m := rfl

@[simp] theorem State.updBox_sent (s : State) (m : Nat) (f : Mailbox → Mailbox) : (s.updBox m f).host.sent = s.host.sent := rfl

@[simp] theorem State.putWire_sent (s : State) (w : VWire) : (s.putWire w).host.sent = w :: s.host.sent := rfl

/-- A state that differs from another in the mailboxes and in what was sent. -/
def State.HostOnly (s t : State) : Prop := t = { s with host := t.host }

theorem State.HostOnly.refl (s : State) : s.HostOnly s := rfl

theorem State.HostOnly.trans {s t u : State} (h : s.HostOnly t) (g : t.HostOnly u) : s.HostOnly u := by
  unfold State.HostOnly at *
  rw [g, h]

theorem State.updBox_hostOnly (s : State) (m : Nat) (f : Mailbox → Mailbox) : s.HostOnly (s.updBox m f) := rfl

theorem State.putWire_hostOnly (s : State) (w : VWire) : s.HostOnly (s.putWire w) := rfl

theorem State.pump_hostOnly (n : Nat) (s : State) (m : Nat) : s.HostOnly (State.pump n s m) := by
  induction n generalizing s with
  | zero => rfl
  | succ n ih =>
    unfold State.pump
    simp only []
    split
    · rfl
    · split
      · rfl
      · exact ((s.putWire_hostOnly _).trans (State.updBox_hostOnly _ m _)).trans (ih _)

/-- Sending on one mailbox leaves the others. -/
theorem State.pump_other (n : Nat) (s : State) {m k : Nat} (h : k ≠ m) : (State.pump n s m).box k = s.box k := by
  induction n generalizing s with
  | zero => rfl
  | succ n ih =>
    unfold State.pump
    simp only []
    split
    · rfl
    · split
      · rfl
      · rw [ih, State.box_updBox_other _ _ h, State.box_putWire]

theorem State.post_hostOnly (s : State) (m : Nat) (o : VOut) : s.HostOnly (s.post m o) :=
  (s.updBox_hostOnly m _).trans (State.pump_hostOnly _ _ m)

theorem State.post_other (s : State) {m k : Nat} (o : VOut) (h : k ≠ m) : (s.post m o).box k = s.box k := by
  unfold State.post
  simp only []
  rw [State.pump_other _ _ h, State.box_updBox_other _ _ h]

theorem State.settle_hostOnly (s : State) (r : Req) : s.HostOnly (s.settle r) := rfl

theorem State.reply_hostOnly (s : State) (r : Req) (st : Status) (body : List Byte) : s.HostOnly (s.reply r st body) := by
  unfold State.reply
  split
  · rfl
  · exact (s.settle_hostOnly r).trans (State.post_hostOnly _ _ _)

theorem State.reply_other (s : State) (r : Req) (st : Status) (body : List Byte) {k : Nat} (h : k ≠ r.box) :
    (s.reply r st body).box k = s.box k := by
  unfold State.reply
  split
  · rfl
  · rw [State.post_other _ _ h]
    exact State.box_updBox_other s _ h

theorem State.replySealed_hostOnly (s : State) (r : Req) (st : Status) (body : List Byte) (k : Nat) :
    s.HostOnly (s.replySealed r st body k) := by
  unfold State.replySealed
  split
  · rfl
  · exact (s.settle_hostOnly r).trans (State.post_hostOnly _ _ _)

theorem State.event_hostOnly (s : State) (m kind part : Nat) (d : List Byte) : s.HostOnly (s.event m kind part d) := by
  unfold State.event
  simp only []
  split
  · exact ((s.updBox_hostOnly m _).trans (State.post_hostOnly _ _ _)).trans (State.post_hostOnly _ _ _)
  · exact State.post_hostOnly _ _ _

theorem State.foldl_hostOnly {α : Type} (l : List α) (g : State → α → State) (h : ∀ (s : State) (a : α), s.HostOnly (g s a)) (s : State) :
    s.HostOnly (l.foldl g s) := by
  induction l generalizing s with
  | nil => rfl
  | cons a l ih => exact (h s a).trans (ih _)

theorem State.replyStream_hostOnly (s : State) (r : Req) (st : Status) (sealed : Bool) (base : Nat) (bs : List Byte) :
    s.HostOnly (s.replyStream r st sealed base bs) := by
  unfold State.replyStream
  split
  · rfl
  · exact ((s.settle_hostOnly r).trans (State.post_hostOnly _ _ _)).trans
      (State.foldl_hostOnly _ _ (fun _ _ => State.post_hostOnly _ _ _) _)

/-- A state that differs from another in the mailboxes, what was sent, and the journal. -/
def State.HostJournal (s t : State) : Prop := t = { s with host := t.host, journal := t.journal }

theorem State.HostOnly.journal {s t : State} (h : s.HostOnly t) : s.HostJournal t := by
  unfold State.HostJournal State.HostOnly at *
  rw [h]

theorem State.HostJournal.refl (s : State) : s.HostJournal s := rfl

theorem State.HostJournal.trans {s t u : State} (h : s.HostJournal t) (g : t.HostJournal u) : s.HostJournal u := by
  unfold State.HostJournal at *
  rw [g, h]

theorem State.retireJob_hostJournal (s : State) (id : BitVec 32) : s.HostJournal (s.retireJob id) := by
  unfold State.retireJob
  split <;> rfl

theorem State.takeAck_hostJournal (s : State) (m : Nat) (ack : BitVec 32) : s.HostJournal (s.takeAck m ack) := by
  have key : ∀ (l : List VSent) (u : State), u.HostJournal (l.foldl (fun s v =>
      if v.wire.opcode = 0x42 then s.retireJob (BitVec.ofNat 32 (beNat ((v.wire.payload.drop 8).take 4))) else s) u) := by
    intro l
    induction l with
    | nil => intro u; rfl
    | cons v l ih =>
      intro u
      rw [List.foldl_cons]
      refine State.HostJournal.trans ?_ (ih _)
      split
      · exact State.retireJob_hostJournal _ _
      · rfl
  unfold State.takeAck
  exact (((s.updBox_hostOnly m _).journal).trans (key _ _)).trans (State.pump_hostOnly _ _ m).journal

theorem State.vorlaTake_passes (s : State) (f : VFrame) (h : (s.vorlaTake f).2 = true) : s.HostJournal (s.vorlaTake f).1 := by
  have h1 : s.HostJournal (s.updBox f.mailbox.toNat (Mailbox.heard f)) := (s.updBox_hostOnly _ _).journal
  have h2 : s.HostJournal (if f.flags.getLsbD 6 then
      (s.updBox f.mailbox.toNat (Mailbox.heard f)).takeAck f.mailbox.toNat f.ack else s.updBox f.mailbox.toNat (Mailbox.heard f)) := by
    split
    · exact h1.trans (State.takeAck_hostJournal _ _ _)
    · exact h1
  have h3 : s.HostJournal (if f.unseq then (if f.flags.getLsbD 6 then
      (s.updBox f.mailbox.toNat (Mailbox.heard f)).takeAck f.mailbox.toNat f.ack else s.updBox f.mailbox.toNat (Mailbox.heard f))
      else (if f.flags.getLsbD 6 then (s.updBox f.mailbox.toNat (Mailbox.heard f)).takeAck f.mailbox.toNat f.ack
        else s.updBox f.mailbox.toNat (Mailbox.heard f)).updBox f.mailbox.toNat Mailbox.counted) := by
    split
    · exact h2
    · exact h2.trans (State.updBox_hostOnly _ _ _).journal
  revert h
  unfold State.vorlaTake
  simp only []
  split
  · intro _; exact State.HostJournal.refl s
  · split
    · intro h; exact absurd h (by simp)
    · intro _; exact h3

/-- HELLO that passes rows 1 to 3 of Table 12-3 has changed nothing; any other frame that passes rows 1 to 4 has changed mailboxes and,
through its acknowledgement, the journal. -/
theorem State.vorlaFront_passes (s : State) (op : Nat) (f : VFrame) (h : (s.vorlaFront op f).2 = true) :
    s.HostJournal (s.vorlaFront op f).1 := by
  revert h
  unfold State.vorlaFront
  simp only []
  split_ifs <;> intro h
  all_goals first
    | rfl
    | exact State.vorlaTake_passes s f h
    | exact False.elim h

theorem State.vorlaFront_hello (s : State) (f : VFrame) (h : (s.vorlaFront 0x01 f).2 = true) : (s.vorlaFront 0x01 f).1 = s := by
  revert h
  unfold State.vorlaFront
  simp only []
  split_ifs <;> intro h
  all_goals first
    | rfl
    | exact False.elim h
    | (rename_i c; simp only [decide_eq_true_eq] at h; simp [h] at c)

/-- An accepted request has changed mailboxes and, through its acknowledgement, the journal. -/
theorem State.taken_hostJournal (s : State) (op : Nat) (f : VFrame) (h : s.Serves op f) : s.HostJournal (s.taken op f) := by
  have h1 := State.vorlaFront_passes s op f h.front
  have h2 : s.HostJournal ((s.vorlaFront op f).1.shaped s.fuses s.geom) := by
    unfold State.HostJournal at h1 ⊢
    rw [h1]
    rfl
  exact h2.trans (State.updBox_hostOnly _ _ _).journal

/-- What an accepted request leaves calm stays calm. -/
theorem State.taken_calm (s : State) (op : Nat) (f : VFrame) (h : s.Serves op f) (hc : s.Calm) : (s.taken op f).Calm := by
  have := State.taken_hostJournal s op f h
  unfold State.HostJournal at this
  rw [this]
  exact ⟨hc.due, hc.reset, hc.up⟩

/-- The end of a command that has changed mailboxes and the journal of a calm panel. -/
theorem finish_hostJournal (s t : State) (hc : s.Calm) (h : s.HostJournal t) : finish s t = t := by
  unfold State.HostJournal at h
  refine finish_same s t ?_ ?_ ?_ ?_ ?_ ?_ <;> rw [h]
  · exact hc.due
  · exact hc.reset
  · exact hc.up

end Sys2Proof.Machine
end

