-- ==== Sys2Proof/Laws/Frames.lean ====
section
/-! SUPPORT. What shared operations leave alone: frames taken, key pairs drawn, persistent registers written, the device reset at a
command's end. -/

namespace Sys2Proof.Machine

/-- Taking free frames changes the HBM state alone. -/
theorem State.takeFrames_hbm (par : Bool) (o n lo : Nat) (s : State) (fs : List Nat) (v : State)
    (h : State.takeFrames par o n lo s = some (fs, v)) : v = { s with hbm := v.hbm } := by
  induction n generalizing lo s fs v with
  | zero => simp only [State.takeFrames, Option.some.injEq, Prod.mk.injEq] at h; rw [← h.2]
  | succ n ih =>
    unfold State.takeFrames at h
    split at h
    · cases h
    · simp only [Option.map_eq_some_iff] at h
      obtain ⟨⟨a1, a2⟩, ha, hb⟩ := h
      have := ih _ _ _ _ ha
      cases hb
      rw [this]

/-- A key pair draws from Headwater and changes nothing else. -/
theorem State.drawKeyPair_ent (s : State) : s.drawKeyPair.2 = { s with ent := s.drawKeyPair.2.ent } := by
  by_cases h : List.take 32 (s.ent.seed.output 64).1 = List.drop 32 (s.ent.seed.output 64).1 <;>
    simp [State.drawKeyPair, State.drawFresh, h]

/-- A reseed keeps the state of Headwater and the requests that wait. -/
theorem EntropyState.seed_keeps (e : EntropyState) : e.seed.state = e.state ∧ e.seed.waiters = e.waiters := by
  simp [EntropyState.seed, EntropyState.block, EntropyState.raw]

/-- A persistent register that does not become worn is written, its WCOUNT rises, and no other register changes. -/
theorem State.pregWriteWatched_fresh (s : State) (n : Nat) (v : Word) (h : (s.preg n).wcount.toNat < 99999) :
    s.pregWriteWatched n v = s.pregWrite n v ∧ (s.pregWrite n v).preg n = { value := v, wcount := (s.preg n).wcount + 1 } ∧
      (∀ m, m ≠ n → (s.pregWrite n v).preg m = s.preg m) ∧
      s.pregWrite n v = { s with firm := { s.firm with pregs := (s.pregWrite n v).firm.pregs } } := by
  have h1 : ¬ 100000 ≤ (s.preg n).wcount.toNat := by omega
  have e : (s.pregWrite n v).preg n = { value := v, wcount := (s.preg n).wcount + 1 } := by
    simp only [State.pregWrite, h1, if_false]; simp [State.preg]
  refine ⟨?_, e, ?_, ?_⟩
  · unfold State.pregWriteWatched
    have : ¬ 100000 ≤ ((s.preg n).wcount + 1).toNat := by
      rw [BitVec.toNat_add]
      have := Nat.mod_le ((s.preg n).wcount.toNat + (1 : BitVec 32).toNat) (2 ^ 32)
      have : (1 : BitVec 32).toNat = 1 := rfl
      omega
    simp only [PReg.worn, h1, e, this]
    simp
  · intro m hm
    simp only [State.pregWrite, h1, if_false]
    simp [State.preg, Tab.getD_set_other _ _ _ hm]
  · simp only [State.pregWrite, h1, if_false]

/-- The end of a command that has called for a device reset, with no repair due. -/
theorem finish_reset (s t : State) (c : Cause) (h : t.err.due = []) (hr : t.resetReq = some c) :
    finish s t = { t.deviceReset c with pending := s.pending, fuses := s.fuses, geom := [] } := by
  have : State.runDue 8 t = t := by simp [State.runDue, h]
  simp only [finish, State.settleAll, this, hr]
  rfl

/-- The frames of a PART_CREATE that are all there: pages and reserve first, the tables' after them. -/
theorem State.createFrames_of (s : State) (c : CreateReq) (fs gs : List Nat) (v w : State)
    (h : State.takeFrames (bit c.flags 0) c.rect.part (c.pages + c.touch) 0 s = some (fs, v))
    (h' : State.takeFrames false 0 (tableFrames c.vaLimit) 0 v = some (gs, w)) : s.createFrames c = some ⟨fs, gs, w⟩ := by
  unfold State.createFrames
  rw [h, Option.bind_some, h', Option.map_some]

/-- A PART_CREATE whose frames are all there builds the partition and answers its CENSUS. -/
theorem State.createPart_of (s : State) (r : Req) (c : CreateReq) (f : CreateFrames) (h : s.createFrames c = some f) :
    s.createPart r c =
      (s.buildPart c f.pages f.tables f.after.hbm f.after.drawKeyPair.2.ent f.after.drawKeyPair.1).reply r .ok (beBytes 4 c.rect.census) := by
  unfold State.createPart
  rw [h]

/-- A PART_CREATE that finds too few frames is answered ST_LIMIT and changes nothing else. -/
theorem State.createPart_none (s : State) (r : Req) (c : CreateReq) (h : s.createFrames c = none) :
    s.createPart r c = s.reply r .limit [] := by
  unfold State.createPart
  rw [h]

end Sys2Proof.Machine
end

