-- ==== Sys2Proof/Laws/Mem.lean ====
section
/-! SUPPORT. Laws of byte memories: the canonical form is kept, a read after a write to the same place gives what was written, and a write
leaves every other byte alone. -/

namespace Sys2Proof.Machine

theorem Mem.byte_append (m n : Mem) (x : Nat) :
    Mem.byte (m ++ n) x = if m.any (fun c => decide (c.1 = x)) then Mem.byte m x else Mem.byte n x := by
  induction m with
  | nil => simp
  | cons c m ih =>
    by_cases h : c.1 = x
    · simp [Mem.byte, h]
    · simp [Mem.byte, h, ih]

theorem Mem.byte_none (m : Mem) (x : Nat) (h : m.any (fun c => decide (c.1 = x)) = false) : Mem.byte m x = 0 := by
  induction m with
  | nil => rfl
  | cons c m ih =>
    simp only [List.any_cons, Bool.or_eq_false_iff, decide_eq_false_iff_not] at h
    simp [Mem.byte, h.1, ih h.2]

theorem Mem.byte_filter (m : Mem) (p : Nat → Bool) (x : Nat) :
    Mem.byte (m.filter fun c => p c.1) x = if p x then Mem.byte m x else 0 := by
  induction m with
  | nil => simp [Mem.byte]
  | cons c m ih =>
    by_cases hp : p c.1
    · by_cases hx : c.1 = x
      · subst hx; simp [Mem.byte, hp]
      · simp [Mem.byte, hp, hx, ih]
    · by_cases hx : c.1 = x
      · subst hx; simp [hp, ih]
      · simp [Mem.byte, hp, hx, ih]

theorem Mem.any_filter (m : Mem) (p : Nat → Bool) (x : Nat) :
    (m.filter fun c => p c.1).any (fun c => decide (c.1 = x)) = (p x && m.any fun c => decide (c.1 = x)) := by
  induction m with
  | nil => simp
  | cons c m ih =>
    by_cases hp : p c.1
    · by_cases hx : c.1 = x
      · subst hx; simp [hp]
      · simp [hp, hx, ih]
    · by_cases hx : c.1 = x
      · subst hx; simp [hp, ih]
      · simp [hp, hx, ih]

theorem Mem.any_cellsOf (a : Nat) (bs : List Byte) (x : Nat) :
    (Mem.cellsOf a bs).any (fun c => decide (c.1 = x)) = true → a ≤ x ∧ x < a + bs.length := by
  induction bs generalizing a with
  | nil => simp [Mem.cellsOf]
  | cons b bs ih =>
    unfold Mem.cellsOf
    split
    · intro h
      have := ih (a + 1) h
      simp only [List.length_cons]; omega
    · intro h
      simp only [List.any_cons, Bool.or_eq_true, decide_eq_true_eq] at h
      rcases h with h | h
      · simp only [List.length_cons]; omega
      · have := ih (a + 1) h
        simp only [List.length_cons]; omega

theorem Mem.byte_cellsOf (a : Nat) (bs : List Byte) (x : Nat) (h : a ≤ x) : Mem.byte (Mem.cellsOf a bs) x = bs.getD (x - a) 0 := by
  induction bs generalizing a with
  | nil => simp [Mem.cellsOf, Mem.byte]
  | cons b bs ih =>
    by_cases hx : a = x
    · subst hx
      unfold Mem.cellsOf
      split
      · rename_i hb
        rw [Mem.byte_none]
        · simp [hb]
        · by_contra hc
          have := Mem.any_cellsOf (a + 1) bs a (by simpa using hc)
          omega
      · simp [Mem.byte]
    · have h1 : a + 1 ≤ x := by omega
      have e : x - a = (x - (a + 1)) + 1 := by omega
      unfold Mem.cellsOf
      split
      · rw [ih (a + 1) h1, e]; simp
      · simp only [Mem.byte, hx, if_false]
        rw [ih (a + 1) h1, e]; simp

/-- A byte after a write: what was written inside the range, what was there outside it. -/
theorem Mem.byte_write (m : Mem) (a : Nat) (bs : List Byte) (x : Nat) :
    (m.write a bs).byte x = if a ≤ x ∧ x < a + bs.length then bs.getD (x - a) 0 else m.byte x := by
  unfold Mem.write
  have h1 := Mem.byte_filter m (fun n => decide (n < a)) x
  have h2 := Mem.byte_filter m (fun n => decide (a + bs.length ≤ n)) x
  have h3 := Mem.any_filter m (fun n => decide (n < a)) x
  rw [List.append_assoc, Mem.byte_append, Mem.byte_append, h1, h2, h3]
  by_cases hlt : x < a
  · have hc : (Mem.cellsOf a bs).any (fun c => decide (c.1 = x)) = false := by
      by_contra hc
      have := Mem.any_cellsOf a bs x (by simpa using hc)
      omega
    have hn : ¬ a + bs.length ≤ x := by omega
    have hn' : ¬ (a ≤ x ∧ x < a + bs.length) := by omega
    simp only [hlt, decide_true, Bool.true_and, if_true, hc, Bool.false_eq_true, if_false, hn, decide_false, hn']
    split
    · rfl
    · rename_i h; exact (Mem.byte_none m x (Bool.not_eq_true _ ▸ h)).symm ▸ rfl
  · by_cases hin : x < a + bs.length
    · have hi : a ≤ x ∧ x < a + bs.length := ⟨by omega, hin⟩
      have hn : ¬ a + bs.length ≤ x := by omega
      simp only [hlt, decide_false, Bool.false_and, Bool.false_eq_true, if_false, hi, and_self, if_true, hn]
      split
      · exact Mem.byte_cellsOf a bs x (by omega)
      · rename_i h
        rw [← Mem.byte_cellsOf a bs x (by omega), Mem.byte_none (Mem.cellsOf a bs) x (Bool.not_eq_true _ ▸ h)]
    · have hc : (Mem.cellsOf a bs).any (fun c => decide (c.1 = x)) = false := by
        by_contra hc
        have := Mem.any_cellsOf a bs x (by simpa using hc)
        omega
      have hy : a + bs.length ≤ x := by omega
      have hn' : ¬ (a ≤ x ∧ x < a + bs.length) := by omega
      simp [hlt, hc, hy, hn']

/-- A write leaves every byte outside its range alone. -/
theorem Mem.byte_write_other (m : Mem) (a : Nat) (bs : List Byte) (x : Nat) (h : x < a ∨ a + bs.length ≤ x) :
    (m.write a bs).byte x = m.byte x := by
  rw [Mem.byte_write, if_neg (by omega)]

/-- The canonical form from a higher bound. -/
theorem Mem.wfFrom_mono {lo hi : Nat} {m : Mem} (h : Mem.wfFrom hi m = true) (hl : lo ≤ hi) : Mem.wfFrom lo m = true := by
  cases m with
  | nil => rfl
  | cons c m =>
    simp only [Mem.wfFrom, Bool.and_eq_true, decide_eq_true_eq] at h ⊢
    exact ⟨⟨by omega, h.1.2⟩, h.2⟩

theorem Mem.wfFrom_filter (p : Nat → Bool) {lo : Nat} {m : Mem} (h : Mem.wfFrom lo m = true) :
    Mem.wfFrom lo (m.filter fun c => p c.1) = true := by
  induction m generalizing lo with
  | nil => rfl
  | cons c m ih =>
    simp only [Mem.wfFrom, Bool.and_eq_true, decide_eq_true_eq] at h
    have := ih h.2
    by_cases hp : p c.1
    · simp only [hp, List.filter_cons_of_pos, Mem.wfFrom, Bool.and_eq_true, decide_eq_true_eq]
      exact ⟨h.1, this⟩
    · simp only [hp, Bool.false_eq_true, not_false_eq_true, List.filter_cons_of_neg]
      exact Mem.wfFrom_mono this (by omega)

theorem Mem.wfFrom_cellsOf (a : Nat) (bs : List Byte) : Mem.wfFrom a (Mem.cellsOf a bs) = true := by
  induction bs generalizing a with
  | nil => rfl
  | cons b bs ih =>
    unfold Mem.cellsOf
    split
    · exact Mem.wfFrom_mono (ih (a + 1)) (by omega)
    · rename_i hb
      simp only [Mem.wfFrom, Bool.and_eq_true, decide_eq_true_eq]
      exact ⟨⟨by omega, hb⟩, ih (a + 1)⟩

theorem Mem.wfFrom_append {lo hi : Nat} {m n : Mem} (hm : Mem.wfFrom lo m = true) (hn : Mem.wfFrom hi n = true) (hl : lo ≤ hi)
    (hb : ∀ c ∈ m, c.1 < hi) : Mem.wfFrom lo (m ++ n) = true := by
  induction m generalizing lo with
  | nil => exact Mem.wfFrom_mono hn hl
  | cons c m ih =>
    simp only [Mem.wfFrom, Bool.and_eq_true, decide_eq_true_eq] at hm
    simp only [List.cons_append, Mem.wfFrom, Bool.and_eq_true, decide_eq_true_eq]
    have hc := hb c (by simp)
    exact ⟨hm.1, ih hm.2 (by omega) (fun d hd => hb d (by simp [hd]))⟩

theorem Mem.cellsOf_bound (a : Nat) (bs : List Byte) : ∀ c ∈ Mem.cellsOf a bs, c.1 < a + bs.length := by
  intro c hc
  have := Mem.any_cellsOf a bs c.1 (by simp only [List.any_eq_true, decide_eq_true_eq]; exact ⟨c, hc, rfl⟩)
  exact this.2

theorem Mem.wfFrom_high {lo hi : Nat} {m : Mem} (h : Mem.wfFrom lo m = true) (hb : ∀ c ∈ m, hi ≤ c.1) : Mem.wfFrom hi m = true := by
  cases m with
  | nil => rfl
  | cons c m =>
    simp only [Mem.wfFrom, Bool.and_eq_true, decide_eq_true_eq] at h ⊢
    exact ⟨⟨hb c (by simp), h.1.2⟩, h.2⟩

/-- A write keeps the canonical form. -/
theorem Mem.wf_write (m : Mem) (a : Nat) (bs : List Byte) (h : m.wf = true) : (m.write a bs).wf = true := by
  unfold Mem.wf at h ⊢
  unfold Mem.write
  have hlow := Mem.wfFrom_filter (fun n => decide (n < a)) h
  have hhigh : Mem.wfFrom (a + bs.length) (m.filter fun c => decide (a + bs.length ≤ c.1)) = true :=
    Mem.wfFrom_high (Mem.wfFrom_filter (fun n => decide (a + bs.length ≤ n)) h) (by simp [List.mem_filter])
  rw [List.append_assoc]
  exact Mem.wfFrom_append hlow
    (Mem.wfFrom_append (Mem.wfFrom_cellsOf a bs) hhigh (by omega) (Mem.cellsOf_bound a bs)) (by omega) (by simp [List.mem_filter])

/-- Clearing a range keeps the canonical form. -/
theorem Mem.wf_clear (m : Mem) (a n : Nat) (h : m.wf = true) : (m.clear a n).wf = true :=
  Mem.wfFrom_filter (fun x => decide (x < a) || decide (a + n ≤ x)) h

/-- A byte after a range is cleared. -/
theorem Mem.byte_clear (m : Mem) (a n x : Nat) : (m.clear a n).byte x = if a ≤ x ∧ x < a + n then 0 else m.byte x := by
  have := Mem.byte_filter m (fun y => decide (y < a) || decide (a + n ≤ y)) x
  unfold Mem.clear
  rw [this]
  by_cases h : a ≤ x ∧ x < a + n
  · have h1 : ¬ x < a := by omega
    have h2 : ¬ a + n ≤ x := by omega
    simp [h, h1, h2]
  · have : x < a ∨ a + n ≤ x := by omega
    simp [h, this]

end Sys2Proof.Machine
end

