-- ==== Sys2Proof/WellFormed.lean ====
section
/-! DEFINITION. Well-formed commands: operands that name a tile, router, die, site, port, partition or mailbox that the panel can have
(chapters 1, 8, 9, 11, 12). The meanings are total: an operand outside these ranges reaches nothing. -/

namespace Sys2Proof

open Sys2Proof.Machine

/-- A logical tile of the larger grid: 48 columns, 72 rows (R17, R22). -/
def tileOk (t : Nat) : Bool := decide (t < 3456)
/-- A physical position: 48 columns, 78 rows (R15). -/
def routerOk (x y : Nat) : Bool := decide (x < 48) && decide (y < 78)
/-- A compute die (R15). -/
def dieOk (d : Nat) : Bool := decide (d < 24)
/-- A compute die, an edge I/O die or the control die (Table 17-5). -/
def anyDieOk (d : Nat) : Bool := decide (d < 24) || decide (0x20 ≤ d ∧ d < 0x28) || decide (d = 0x40)
/-- A site (R16). -/
def siteOk (n : Nat) : Bool := decide (n < 48)
/-- A stitch link by its number (R336). -/
def linkOk (n : Nat) : Bool := decide (n < 464)
/-- A descriptor slot (R243). -/
def slotOk (n : Nat) : Bool := decide (n < 64)
/-- A scale-out port (Table 12-9). -/
def portOk (n : Nat) : Bool := decide (n < 0x18) || decide (0x20 ≤ n ∧ n < 0x40)
/-- A host port (R316). -/
def hostOk (n : Nat) : Bool := decide (n < 2)
/-- A partition (R28). -/
def partOk (p : Nat) : Bool := decide (1 ≤ p ∧ p ≤ 64)
/-- A mailbox (R316). -/
def boxOk (m : Nat) : Bool := decide (m ≤ 64)
/-- A ring pair (R424). -/
def pairOk (n : Nat) : Bool := decide (n < 16)
/-- A virtual page number: 2 MiB pages of a 43-bit space (R235). -/
def vpnOk (n : Nat) : Bool := decide (n < 2 ^ 22)
/-- A panel number (R287). -/
def peerOk (n : Nat) : Bool := decide (n < 2 ^ 16)

/-- A Vorla frame at one of the host ports (R316). -/
def Machine.VFrame.wellFormed (f : VFrame) : Bool := hostOk f.port

/-- A Tributary frame of at most 8,192 payload bytes (R287). -/
def Machine.TFrame.wellFormed (f : TFrame) : Bool := portOk f.port && decide (f.body.length ≤ 8192 + 16)

/-- A flit on one of the four channels (R198, R204). -/
def Machine.Flit.wellFormed (f : Flit) : Bool := decide (f.vc < 4) && decide (f.part ≤ 64) && decide (f.data.length ≤ 256) && decide (f.lines < 16)

/-- A register that exists. -/
def RegId.wellFormed : RegId → Bool
  | .fpStatus t | .accStatus t | .accCtrl t | .riffleSeedHi t | .riffleSeedLo t | .riffleStatus t | .seqStatus t | .seqProgress t
  | .seqConflict t | .drawProgress t | .ferryStatus t | .eyepiece t => tileOk t
  | .routerCtrl x y | .routerCount x y => routerOk x y
  | .census p | .meridian p => partOk p
  | .tribCfg p => portOk p
  | .diePwr d => dieOk d
  | .persistent n => decide (n < 512)
  | .hwStatus | .hwPool | .pwrStatus | .resetCause | .spillway => true

/-- A command whose operands name things the panel can have. -/
def Instr.wellFormed : Instr → Bool
  | .endStream tile => tileOk tile
  | .mma tile _ _ => tileOk tile
  | .retire tile => tileOk tile.tile
  | .spillCombine tile => tileOk tile
  | .accLd tile _ => tileOk tile
  | .drain tile _ _ _ _ => tileOk tile
  | .drainDone tile => tileOk tile
  | .accCtrl tile _ => tileOk tile
  | .chainOp tile _ _ _ => tileOk tile
  | .readyToken tile _ _ => tileOk tile
  | .legStart tile => tileOk tile
  | .chainFlit tile => tileOk tile
  | .rawBits tile _ _ _ _ _ => tileOk tile
  | .unif01 tile _ _ _ _ _ => tileOk tile
  | .unifOpen tile _ _ _ _ _ => tileOk tile
  | .unif0164 tile _ _ _ _ _ => tileOk tile
  | .uintBelow tile _ _ _ _ _ => tileOk tile
  | .bernoulli tile _ _ _ _ _ => tileOk tile
  | .normalDraw tile _ _ _ _ _ => tileOk tile
  | .truncNormal tile _ _ _ _ _ => tileOk tile
  | .exponentialDraw tile _ _ _ _ _ => tileOk tile
  | .gumbelDraw tile _ _ _ _ _ => tileOk tile
  | .wholeRow tile _ _ _ _ => tileOk tile.tile && decide (1 ≤ tile.rows ∧ tile.rows ≤ 16384)
  | .localRow tile _ _ _ _ => tileOk tile.tile && decide (1 ≤ tile.rows ∧ tile.rows ≤ 16384)
  | .finalRow tile _ _ _ _ => tileOk tile.tile && decide (1 ≤ tile.rows ∧ tile.rows ≤ 16384)
  | .ferryCopy tile _ _ => tileOk tile
  | .ferryFill tile _ _ => tileOk tile
  | .suRun tile _ => tileOk tile
  | .exportFlit tile src => tileOk tile && tileOk src
  | .endMarker tile src => tileOk tile && tileOk src
  | .stagingCopy tile => tileOk tile
  | .addElems tile _ _ _ _ _ => tileOk tile
  | .subElems tile _ _ _ _ _ => tileOk tile
  | .mulElems tile _ _ _ _ _ => tileOk tile
  | .fma tile _ _ _ _ _ => tileOk tile
  | .maximum tile _ _ _ _ _ => tileOk tile
  | .minimum tile _ _ _ _ _ => tileOk tile
  | .cvt tile _ _ _ _ _ => tileOk tile
  | .cadd tile _ _ _ _ _ => tileOk tile
  | .divElems tile _ _ _ _ _ => tileOk tile
  | .sqrtElems tile _ _ _ _ _ => tileOk tile
  | .expElems tile _ _ _ _ _ => tileOk tile
  | .logElems tile _ _ _ _ _ => tileOk tile
  | .barrier tile => tileOk tile
  | .stepBarrier tile => tileOk tile
  | .barrierArrive tile src => tileOk tile && tileOk src
  | .barrierRelease tile => tileOk tile
  | .loopOpen tile _ => tileOk tile
  | .loopClose tile => tileOk tile
  | .waitFerry tile _ => tileOk tile
  | .riffleWord tile _ _ => tileOk tile
  | .writeFlit x y f => routerOk x y && f.wellFormed
  | .readReq x y f => routerOk x y && f.wellFormed
  | .rspList x y f => routerOk x y && f.wellFormed
  | .readRsp x y f => routerOk x y && f.wellFormed
  | .forkBuffer x y => routerOk x y
  | .reissue x y => routerOk x y
  | .fenceAck x y f => routerOk x y && f.wellFormed
  | .stitchCrc link _ => linkOk link
  | .stitchLane link => linkOk link
  | .sramScrub x y _ => routerOk x y
  | .hbmRequest tile slot _ => tileOk tile && slotOk slot
  | .refreshBank site _ => siteOk site
  | .patrolScrub site _ => siteOk site
  | .pageWalk tile slot _ => tileOk tile && slotOk slot
  | .lockRetry tile slot => tileOk tile && slotOk slot
  | .firstTouch tile slot => tileOk tile && slotOk slot
  | .pteChange part vpn _ => partOk part && vpnOk vpn
  | .invalidateAck tile vpn => tileOk tile && vpnOk vpn
  | .hello f => f.wellFormed
  | .keepalive f => f.wellFormed
  | .byeFrame f => f.wellFormed
  | .loadBegin f => f.wellFormed
  | .loadChunk f => f.wellFormed
  | .loadEnd f => f.wellFormed
  | .fwStage f => f.wellFormed
  | .fwActivate f => f.wellFormed
  | .activateCancel f => f.wellFormed
  | .commitPoint => true
  | .handover _ => true
  | .activationDeadline => true
  | .mbxOffer f => f.wellFormed
  | .mbxFinish f => f.wellFormed
  | .offerExpiry mailbox => boxOk mailbox
  | .linkOffer f => f.wellFormed
  | .linkAccept f => f.wellFormed
  | .linkFinish f => f.wellFormed
  | .linkDrop f => f.wellFormed
  | .quoteBody f => f.wellFormed
  | .certs f => f.wellFormed
  | .lifecycle f => f.wellFormed
  | .releaseKeyExpiry part => partOk part
  | .keyRotate f => f.wellFormed
  | .sweepBatch part _ => partOk part
  | .rotationDone part => partOk part
  | .weightBind f => f.wellFormed
  | .partCreate f => f.wellFormed
  | .partDestroy f => f.wellFormed
  | .partQuery f => f.wellFormed
  | .jobSubmit f => f.wellFormed
  | .jobStart part => partOk part
  | .jobDone part => partOk part
  | .jobCancel f => f.wellFormed
  | .preempt f => f.wellFormed
  | .atRest part => partOk part
  | .resumePart f => f.wellFormed
  | .ckptSave f => f.wellFormed
  | .ckptRestore f => f.wellFormed
  | .logRead f => f.wellFormed
  | .traceSet f => f.wellFormed
  | .errRecords f => f.wellFormed
  | .instanceRecord f => f.wellFormed
  | .onceInject f => f.wellFormed
  | .countInject f => f.wellFormed
  | .stopInject f => f.wellFormed
  | .injectedEvent _ _ _ => true
  | .entropyGet f => f.wellFormed
  | .entropyGetTimeout mailbox => boxOk mailbox
  | .selftest f _ => f.wellFormed
  | .intrusivePart _ part _ => partOk part
  | .ageScan f => f.wellFormed
  | .replan f => f.wellFormed
  | .powerBudget f => f.wellFormed
  | .throttleTarget f => f.wellFormed
  | .idlePolicy f => f.wellFormed
  | .phyRetrain f => f.wellFormed
  | .portConfig f => f.wellFormed
  | .lockstepPair f => f.wellFormed
  | .unpair f => f.wellFormed
  | .persistRead f => f.wellFormed
  | .persistWrite f => f.wellFormed
  | .journalQuery f => f.wellFormed
  | .vorlaRetx mailbox _ => boxOk mailbox
  | .ackDeadline mailbox => boxOk mailbox
  | .sessionExpiry mailbox => boxOk mailbox
  | .keepaliveSend => true
  | .dataFrame f => f.wellFormed
  | .ackFrame f => f.wellFormed
  | .haloFrame f => f.wellFormed
  | .chainFrame f => f.wellFormed
  | .arriveFrame f => f.wellFormed
  | .releaseFrame f => f.wellFormed
  | .leaveFrame f => f.wellFormed
  | .openConn f => f.wellFormed
  | .startFrame f => f.wellFormed
  | .digestFrame f => f.wellFormed
  | .freezeFrame f => f.wellFormed
  | .holdFrame f => f.wellFormed
  | .lstepResume f => f.wellFormed
  | .lsTimeout part => partOk part
  | .rto part peer ix _ => partOk part && peerOk peer && decide (ix < 256)
  | .tribAckTimer part peer ix => partOk part && peerOk peer && decide (ix < 256)
  | .every20us part peer ix => partOk part && peerOk peer && decide (ix < 256)
  | .openTimeout part => partOk part
  | .portDownTimeout port => portOk port
  | .neighborSolicitation port _ => portOk port
  | .traceRd tile _ => tileOk tile
  | .routerCount x y => routerOk x y
  | .ferryStatus tile => tileOk tile
  | .diePwr die => dieOk die
  | .registerWrite r _ => r.wellFormed
  | .resetN => true
  | .coldStart _ _ => true
  | .auxLoss => true
  | .refLoss => true
  | .vinDip _ => true
  | .dipRecovery => true
  | .dipHoldEnd => true
  | .vinBrownout => true
  | .tjClamp die _ => anyDieOk die
  | .tjClampEnd die _ => anyDieOk die
  | .thermTrip die _ => anyDieOk die
  | .railClamp die => dieOk die
  | .railClampEnd die _ => dieOk die
  | .bladeLimit => true
  | .bladeLimitEnd => true
  | .droop die => dieOk die
  | .pllLock die _ => dieOk die
  | .limiterFault die => dieOk die
  | .tileGate x y => routerOk x y
  | .tileWake x y => routerOk x y
  | .dieSleep die => dieOk die
  | .dieWake die => dieOk die
  | .deepIdle => true
  | .deepIdleExit => true
  | .scrubWake => true
  | .ageWindow x y _ _ _ => routerOk x y
  | .planWrite _ => true
  | .drtWatchdog _ => true
  | .stewardFault die => anyDieOk die
  | .stewardReload die _ => anyDieOk die
  | .plateMirror => true
  | .hwRct pair => pairOk pair
  | .hwApt pair => pairOk pair
  | .sentHealth die _ => dieOk die
  | .startupTest _ _ => true
  | .katFailure kind => decide (4 ≤ kind ∧ kind ≤ 6)
  | .expSeed => true
  | .periodicKat _ => true
  | .maskingReseed => true
  | .tribLink port _ _ => portOk port
  | .hostLink port _ _ => hostOk port
  | .testAccessPort _ => true
  | .modeRunReached => true
  | .clockRequest die _ => dieOk die

end Sys2Proof
end

