-- ==== Sys2Proof/Tests/Slice0.lean ====
section
/-! SUPPORT. Own tests: an ill-formed command for each check, single steps against the manual's worked examples and rules, and for
every statement a witness of its hypotheses. -/

set_option Elab.async false

open Sys2Proof Sys2Proof.Machine

namespace Sys2Proof.Tests

/-! ## Small panels -/

/-- Partition 1 at (0, 0), four tiles by four. -/
def rect1 : Rect := ⟨1, 0, 0, 4, 4⟩

/-- The job of partition 1: running, not CANONICAL. -/
def job1 : Job :=
  { id := 1, part := 1, state := 1, flags := 0, key := 7, start := 0, stop := -1, seed := 5, image := [], inPlace := [], panels := 1, mpj := 0,
    panelList := [], rect := rect1, pflags := 0, share := [] }

/-- A panel out of reset in MODE RUN that runs a job on partition 1. -/
def panel1 : State :=
  { geom := [rect1], parts := [(1, { run := some { id := 1 } })], journal := { jobs := [job1], nextId := 2 }, power := { inReset := false },
    firm := { mode := .run } }

/-- The same with tile 0 given. -/
def withTile (x : TileState) : State := panel1.setTile 0 x

theorem panel1_calm : panel1.Calm := ⟨rfl, rfl, rfl⟩
theorem withTile_calm (x : TileState) : (withTile x).Calm := ⟨rfl, rfl, rfl⟩

/-! ## Well-formedness: one ill-formed command for each check -/

theorem test_wf_tile : (Instr.retire { tile := 3455 }).wellFormed = true ∧ (Instr.retire { tile := 3456 }).wellFormed = false := by decide
theorem test_wf_router : (Instr.tileGate 47 77).wellFormed = true ∧ (Instr.tileGate 48 0).wellFormed = false ∧
    (Instr.tileGate 0 78).wellFormed = false := by decide
theorem test_wf_die : (Instr.droop 23).wellFormed = true ∧ (Instr.droop 24).wellFormed = false := by decide
theorem test_wf_any_die : (Instr.stewardFault 0x27).wellFormed = true ∧ (Instr.stewardFault 0x28).wellFormed = false ∧
    (Instr.tjClamp 0x40 118).wellFormed = true ∧ (Instr.tjClamp 24 118).wellFormed = false := by decide
theorem test_wf_site : (Instr.refreshBank 47 40).wellFormed = true ∧ (Instr.refreshBank 48 40).wellFormed = false := by decide
theorem test_wf_link : (Instr.stitchLane 463).wellFormed = true ∧ (Instr.stitchLane 464).wellFormed = false := by decide
theorem test_wf_slot : (Instr.lockRetry 0 63).wellFormed = true ∧ (Instr.lockRetry 0 64).wellFormed = false := by decide
theorem test_wf_port : (Instr.portDownTimeout 0x17).wellFormed = true ∧ (Instr.portDownTimeout 0x18).wellFormed = false ∧
    (Instr.portDownTimeout 0x3F).wellFormed = true ∧ (Instr.portDownTimeout 0x40).wellFormed = false := by decide
theorem test_wf_host_port : (Instr.hostLink 1 true false).wellFormed = true ∧ (Instr.hostLink 2 true false).wellFormed = false := by decide
theorem test_wf_part : (Instr.atRest 64).wellFormed = true ∧ (Instr.atRest 0).wellFormed = false ∧ (Instr.atRest 65).wellFormed = false := by decide
theorem test_wf_mailbox : (Instr.sessionExpiry 64).wellFormed = true ∧ (Instr.sessionExpiry 65).wellFormed = false := by decide
theorem test_wf_pair : (Instr.hwRct 15).wellFormed = true ∧ (Instr.hwRct 16).wellFormed = false := by decide
theorem test_wf_vpn : (Instr.pteChange 1 4194303 0).wellFormed = true ∧ (Instr.pteChange 1 4194304 0).wellFormed = false := by decide
theorem test_wf_peer : (Instr.rto 1 65535 255 0).wellFormed = true ∧ (Instr.rto 1 65536 0 0).wellFormed = false ∧
    (Instr.rto 1 0 256 0).wellFormed = false := by decide
theorem test_wf_kat : (Instr.katFailure 6).wellFormed = true ∧ (Instr.katFailure 7).wellFormed = false := by decide
theorem test_wf_vorla : (Instr.hello {}).wellFormed = true ∧ (Instr.hello { port := 2 }).wellFormed = false := by decide
theorem test_wf_tributary (f : TFrame) (h : f.port = 0x18) : (Instr.dataFrame f).wellFormed = false := by
  simp [Instr.wellFormed, TFrame.wellFormed, portOk, h]
theorem test_wf_flit (f : Flit) (h : f.vc = 4) : (Instr.writeFlit 0 0 f).wellFormed = false := by
  simp [Instr.wellFormed, Flit.wellFormed, h]
theorem test_wf_register : (Instr.registerWrite (.persistent 511) 0).wellFormed = true ∧
    (Instr.registerWrite (.persistent 512) 0).wellFormed = false := by decide

/-! ## Decoding: the opcode table gives no bits (log 2) -/

theorem test_no_word : decodeTableWord 64 0x0123456789ABCDEF = none ∧ panel1.withFetchWord 64 0 = panel1 := ⟨rfl, rfl⟩

/-! ## Requests that are served -/

/-- A session key of the tests. -/
def key1 : List Byte := List.replicate 32 0x5A

/-- A mailbox with an open session that agreed on every feature. -/
def box1 : Mailbox := { live := true, kMac := some key1, kData := some key1, agreed := -1, epoch := 3, rxNext := 9, txNext := 4 }

/-- panel1 with both host ports up and sessions on mailboxes 0 and 1. -/
def panelH : State := { panel1 with host := { ports := [(0, { up := true }), (1, { up := true })], boxes := [(0, box1), (1, box1)] } }

/-- The next frame of a session, still without its trailer. -/
def frameOf (m : BitVec 8) (payload : List Byte) (flags : BitVec 8 := 0) : VFrame :=
  { mailbox := m, seq := 9, epoch := 3, tag := 0x77, flags := flags, payload := payload, payloadLen := BitVec.ofNat 32 payload.length,
    length := 48 + payload.length }

/-- The frame with its trailer under a key. -/
def sign (op : Nat) (key : List Byte) (f : VFrame) : VFrame := { f with trailer := vTrailer key (f.header op) f.payload }

/-- What the checks before and after the trailer ask of a frame and a panel. -/
def passes (s : State) (op : Nat) (f : VFrame) (key : List Byte) : Bool :=
  let p := s.host.ports.getD f.port {}
  let u := (s.vorlaTake f).1.shaped s.fuses s.geom
  !s.power.inReset && p.up && !p.disabled && decide (s.firm.phase ≠ .committed ∧ s.firm.phase ≠ .starting) &&
    !(decide (s.firm.mode = .recovery) && decide (f.mailbox.toNat ≠ 0)) && f.accepted op && decide (f.magic = 0x5A4D) &&
    decide (f.version.toNat / 16 = 1) && s.mailboxExists f.mailbox.toNat && !f.isNull && decide ((s.box f.mailbox.toNat).kMac = some key) &&
    (s.vorlaTake f).2 && decide (u.vorlaCheck op f = none) && !(u.power.deepIdle)

/-- The panel once such a frame is taken. -/
def quiet (s : State) (f : VFrame) : State :=
  ((s.vorlaTake f).1.shaped s.fuses s.geom).updBox f.mailbox.toNat fun b =>
    { b with outstanding := if b.outstanding.contains f.tag then b.outstanding else b.outstanding ++ [f.tag] }

/-- Some panel serves some frame of an opcode in a case of a statement. -/
def Served (op : Nat) (P : State → Req → Prop) : Prop := ∃ (s : State) (f : VFrame), s.Serves op f ∧ P (s.taken op f) (f.request op)

/-- A frame signed under the session's key is served, whatever its trailer's value. -/
theorem serves_sign (s : State) (op : Nat) (f : VFrame) (key : List Byte) (ho : op ≠ 0x01) (h : passes s op f key = true) :
    s.Serves op (sign op key f) ∧ s.taken op (sign op key f) = quiet s f ∧ (sign op key f).request op = f.request op := by
  simp only [passes, Bool.and_eq_true, Bool.not_eq_true', decide_eq_true_eq] at h
  obtain ⟨⟨⟨⟨⟨⟨⟨⟨⟨⟨⟨⟨⟨h1, h2⟩, h3⟩, h4⟩, h5⟩, h6⟩, h7⟩, h8⟩, h9⟩, h10⟩, h11⟩, h12⟩, h13⟩, h14⟩ := h
  have ht : s.trailerOk op (sign op key f) = true := by
    have e : (sign op key f).isNull = false := h10
    have k : (s.box (sign op key f).mailbox.toNat).kMac = some key := h11
    simp only [State.trailerOk, e, k]
    exact decide_eq_true rfl
  have hf : s.vorlaFront op (sign op key f) = s.vorlaTake f := by
    have a1 : (s.host.ports.getD (sign op key f).port {}).up = true := h2
    have a2 : (s.host.ports.getD (sign op key f).port {}).disabled = false := h3
    have a3 : (sign op key f).accepted op = true := h6
    have a4 : (sign op key f).magic = 0x5A4D := h7
    have a5 : (sign op key f).version.toNat / 16 = 1 := h8
    have a6 : s.mailboxExists (sign op key f).mailbox.toNat = true := h9
    have a7 : ¬ (s.firm.mode = .recovery ∧ (sign op key f).mailbox.toNat ≠ 0) := by
      rintro ⟨x, y⟩
      have y' : ¬ f.mailbox.toNat = 0 := y
      simp [x, y'] at h5
    unfold State.vorlaFront
    simp only [h1, a1, a2, h4.1, h4.2, a3, a4, a5, a6, a7, ht, ho, if_false, Bool.not_true, Bool.or_false,
      not_true_eq_false, decide_false, Bool.false_and, ne_eq, Bool.false_eq_true]
    rfl
  have hs : s.taken op (sign op key f) = quiet s f := by
    unfold State.taken quiet
    rw [hf]
    rfl
  refine ⟨⟨?_, ?_, ?_⟩, hs, rfl⟩
  · rw [hf]; exact h12
  · rw [hf]; exact h13
  · have : (quiet s f).power.deepIdle = false := h14
    rw [hs, this]; rfl

theorem served_of (s : State) (op : Nat) (f : VFrame) (P : State → Req → Prop) (ho : op ≠ 0x01) (h : passes s op f key1 = true)
    (hP : P (quiet s f) (f.request op)) : Served op P := by
  obtain ⟨a, b, c⟩ := serves_sign s op f key1 ho h
  exact ⟨s, sign op key1 f, a, by rw [b, c]; exact hP⟩

/-- panelH with a mailbox given for 0 and 1. -/
def boxH (b : Mailbox) : State := { panelH with host := { panelH.host with boxes := [(0, b), (1, b)] } }

def load0 : OpenLoad := { target := 0, length := 8, va := 0 }
def load1 : OpenLoad := { target := 0, length := 1, va := 0, chunks := [(0, [1])] }
def image1 : Image := { digest := List.replicate 32 1 }
def offer1 : MbxOffer := ⟨1, [], []⟩
def prog1 : Program :=
  { digest := [], family := [], flags := 0, census := 0, panels := 0, win := 1, bytes := 0, peers := [], regions := [], groups := [], streams := [],
    frames := [] }
def job3 : Job := { job1 with id := 3, state := 0, key := 8 }
def inj1 : Injection := { id := 1, det := 0x0E03, locs := [], noRepair := false, left := [], period := 0 }

/-! ## Witnesses: the streams and the array -/

/-- A tile inside a loop body entered at position 4 with three runs left. -/
def loopTile : TileState := { pos := 7, loops := [(4, 3)] }

theorem witness_StreamControlCompletes :
    (panel1.Calm ∧ panel1.canIssue 0 = true ∧ bits (2 ^ 32 - 1 : Word).toNat 63 32 = 0 ∧ bits (2 ^ 32 - 1 : Word).toNat 31 0 ≠ 0 ∧
      (panel1.tile 0).loops.length < 4 ∧ (panel1.tile 0).loops = []) ∧
    ((withTile loopTile).Calm ∧ (withTile loopTile).canIssue 0 = true ∧ ((withTile loopTile).tile 0).loops = (4, 3) :: [] ∧
      bits (1 : Word).toNat 31 0 ≠ 0 ∧ bits (1 : Word).toNat 63 32 = 0 ∧ ((withTile loopTile).tile 0).loops.length < 4) ∧
    ((withTile { loops := [(4, 1)] }).canIssue 0 = true ∧ ((withTile { loops := [(4, 1)] }).tile 0).loops = (4, 1) :: []) ∧
    ({ panel1 with parts := [(1, { run := some { id := 1, loading := true } })] } : State).inHandler 1 = true ∧ panel1.inHandler 1 = false ∧
    accCtrlOk (ins 0x04 false [(0x20 : BitVec 32).setWidth 64]) = true ∧ singleOk (ins 0x0F false [0x4003F]) = true := by
  refine ⟨⟨panel1_calm, ?_⟩, ⟨withTile_calm _, ?_⟩, ?_⟩ <;> decide

/-- FP16 by FP16, K = 1, A at line 0 and B at line 0x100; a full drain queue of one; FP32 loads and results. -/
def mmaW0 : Word := 0x2200000100000000
def mmaW1 : Word := 0x0000010000000000

theorem witness_ArrayDispatchCompletes :
    panel1.canIssue 0 = true ∧ (panel1.tile 0).arrayFree = true ∧ mmaOk (ins 0x01 false [mmaW0, mmaW1]) = true ∧
    (Claim.fx panel1 0 (ArrayFx.mma (panel1.canonical (panel1.ownerOf 0)) mmaW0 mmaW1)).arr.tooLong = false ∧
    accLdOk [accMode (panel1.tile 0).array.ctrl] (ins 0x02 false [0x1000000000000000]) = true ∧
    (Claim.fx panel1 0 (ArrayFx.accLd (panel1.canonical (panel1.ownerOf 0)) 0x1000000000000000)).arr.tooLong = false ∧
    drainOk [accMode (panel1.tile 0).array.ctrl] (ins 0x03 true [0x1000000002000000, 0, 0]) = true ∧ (panel1.tile 0).array.drains.length < 2 ∧
    (Claim.fx panel1 0 (ArrayFx.drain 0x1000000002000000 0 (panel1.indexWord (panel1.ownerOf 0) true 0) (panel1.tile 0).iseq)).arr.tooLong = false := by
  decide

/-- An array with one accumulator load in flight. -/
def loadTile : TileState := { array := { issues := [{ ticket := 0, ctrl := 0x20, load := some [] }], ticket := 1 } }

theorem witness_ArrayStagesComplete :
    ((withTile loadTile).tile 0).array.issues = [{ ticket := 0, ctrl := 0x20, load := some [] }] ∧
    (ArrayFx.retireIssue ((withTile loadTile).canonical ((withTile loadTile).ownerOf 0))
      { arr := { ((withTile loadTile).tile 0).array with issues := [] }, sram := ((withTile loadTile).tile 0).sram }
      { ticket := 0, ctrl := 0x20, load := some [] }).arr.tooLong = false ∧ ((withTile loadTile).tile 0).array.issues ≠ [] ∧
    (ArrayFx.spillCombine { arr := (panel1.tile 0).array, sram := (panel1.tile 0).sram }).arr.tooLong = false := by
  decide

/-- A drain to FP32 whose values stand in the shadow buffer. -/
def drained : Drain :=
  { w0 := 0x1000000002000000, w1 := 0, w2 := 0, ctrl := 0x20, watched := 0, iseq := 0, shadow := some [Pair.zero] }

theorem witness_DrainDoneCompletes :
    ((withTile { array := { drains := [drained] } }).tile 0).array.drains = drained :: [] ∧ drained.shadow = some [Pair.zero] ∧
    ((DrainWords.ofWords drained.w0 drained.w1 drained.w2).cvt.mode = .rs → ((withTile { array := { drains := [drained] } }).tile 0).riffleStop = false) :=
  ⟨rfl, rfl, fun _ => rfl⟩

/-- The words of a VRAND: distribution and format, count, PARAM at the edge of its range. -/
theorem witness_VrandCompletes :
    (panel1.tile 0).riffleStop = false ∧
    (vrandOk (ins 0x06 false [0x0000000000010000, 0, 0, 64]) = true ∧ bits (0x0000000000010000 : Word).toNat 63 60 = 0) ∧
    (∀ d ∈ [(1, 0), (2, 0), (3, 0), (4, 1), (4, 2 ^ 31), (5, 0), (5, 65536), (6, 0), (7, 2 ^ 62 - 1), (8, 0), (9, 0)],
      vrandOk (ins 0x06 true [BitVec.ofNat 64 (d.1 * 2 ^ 60 + 0x0100000000010000), 0x0000000500000000, 0, BitVec.ofNat 64 d.2]) = true ∧
      bits (BitVec.ofNat 64 (d.1 * 2 ^ 60 + 0x0100000000010000)).toNat 63 60 = d.1) ∧
    vrandOk (ins 0x06 false [0xA100000000010000, 0, 0, 0]) = false := by
  decide

/-- FP32 operands on lines 0, 1 and 2, the result on line 3; CADD on FP32C. -/
theorem witness_VopCompletes :
    (∀ d ∈ [(0, 0x0000000100000003), (1, 0x0000000100000003), (2, 0x0000000100000003), (3, 0x0000000100020003), (4, 0x0000000100000003),
        (5, 0x0000000100000003), (6, 3), (8, 0x0000000100000003), (9, 3), (10, 3), (11, 3)],
      vopOk (ins 0x0A false [BitVec.ofNat 64 (d.1 * 2 ^ 60 + 0x0111800000010000), BitVec.ofNat 64 d.2, 0, 0]) = true ∧
      bits (BitVec.ofNat 64 (d.1 * 2 ^ 60 + 0x0111800000010000)).toNat 63 60 = d.1) ∧
    vopOk (ins 0x0A false [0x7FFF000000010000, 0x0000000100000003, 0, 0]) = true ∧ (panel1.tile 0).riffleStop = false ∧ panel1.canIssue 0 = true := by
  decide

theorem witness_RiffleWordCompletes : (panel1.tile 0).riffleStop = false ∧ (panel1.tile 0).riffleBuf.length < 4096 := by decide

/-- One row of 16 FP32 logits on line 0, records on line 1, sequences on line 2, INV_TEMP and TOP_P 1, TOP_K 1; FINAL has no logits. -/
def drawWords (phase : Nat) : List Word :=
  [BitVec.ofNat 64 (phase * 2 ^ 60 + 0x0100800100000001), if phase = 2 then 0 else 16 * 2 ^ 15, 0x3F8000003F800000, 0x0000000000020000]

/-- FINAL with TOP_K 2 of one row whose list on line 1 is out of order: token 1 of score 0, then token 0 of score 1. -/
def badList : List Word := [0x2001000100010002, 0, 0x3F8000003F800000, 0x0000000000030000]

/-- Tile 0 within a DRAW of one row: WHOLE on line 1, or FINAL on the list of badList. -/
def drawTile (ws : List Word) (rows : BitVec 15) : TileState :=
  { vq := ws, drawBusy := true, drawRows := rows, sram := Mem.write [] 64 (leBytes 8 1 ++ leBytes 8 0x3F80000000000000) }

theorem witness_DrawCompletes :
    (∀ p ∈ [0, 1, 2], drawOk (ins 0x07 false (drawWords p)) = true ∧
      (DrawWords.ofWords ((drawWords p).getD 0 0) ((drawWords p).getD 1 0) ((drawWords p).getD 2 0) ((drawWords p).getD 3 0)).phase = p) ∧
    panel1.canIssue 0 = true ∧ (panel1.running (panel1.ownerOf 0)).isSome = true ∧
    (∀ p ∈ [0, 1, 2], (panel1.tile 0).drawReady (DrawWords.ofWords ((drawWords p).getD 0 0) ((drawWords p).getD 1 0) ((drawWords p).getD 2 0)
        ((drawWords p).getD 3 0)) = true ∧
      ((withTile (drawTile (drawWords p) 0)).tile 0).vq = drawWords p ∧ (withTile (drawTile (drawWords p) 0)).drawMay 0 = true) := by decide

/-- A row that raises nothing, a list that is out of order, and the end after the last row. -/
theorem witness_DrawRows :
    ((withTile (drawTile (drawWords 0) 0)).tile 0).drawBusy = true ∧
    ((withTile (drawTile (drawWords 0) 0)).tile 0).drawRows.toNat < (DrawWords.ofWords 0x0100800100000001 0 0x3F8000003F800000 0x20000).nrows ∧
    ((DrawWords.ofWords 0x2001000100010002 0 0x3F8000003F800000 0x30000).row 5 (drawTile badList 0).sram 0).raise = some 0x0221 ∧
    ((DrawWords.ofWords ((drawWords 1).getD 0 0) ((drawWords 1).getD 1 0) ((drawWords 1).getD 2 0) ((drawWords 1).getD 3 0)).row 5 [] 0).raise = none ∧
    (DrawWords.ofWords 0x2001000100010002 0 0x3F8000003F800000 0x30000).nrows ≤ ((withTile (drawTile badList 1)).tile 0).drawRows.toNat := by
  decide

/-- A ferry descriptor in line 0x10 of a tile: COPY from line 0 to line 4 of the tile, one FP32 element, record at line 0x20; the same with
OP FILL; and one with a reserved OP. -/
def descTile (op : Nat) : TileState :=
  { sram := Mem.write (Mem.write [] 1024 (leBytes 8 (op * 2 ^ 60 + 0x0011000000200000))) 1040 (leBytes 8 4 ++ leBytes 8 0x0000000100010001) }

theorem witness_FerryCompletes :
    (∀ op ∈ [0, 1, 2], (withTile (descTile op)).canIssue 0 = true ∧ singleOk (ins 0x08 true [0x001000000000003F]) = true ∧
      (((withTile (descTile op)).tile 0).slot (bits (0x001000000000003F : Word).toNat 5 0)).free = true) ∧
    (∀ op ∈ [0, 1], (Desc.ofWords ((withTile (descTile op)).loadWords 1 0 16 true)).ok ((withTile (descTile op)).loadWords 1 0 16 true)
        (fun u => decide ((withTile (descTile op)).ownerOf u = 1)) = true ∧
      (withTile (descTile op)).groupAbsent 1 (Desc.ofWords ((withTile (descTile op)).loadWords 1 0 16 true)) = false ∧
      (Desc.ofWords ((withTile (descTile op)).loadWords 1 0 16 true)).fill = decide (op = 1)) ∧
    (Desc.ofWords ((withTile (descTile 2)).loadWords 1 0 16 true)).ok ((withTile (descTile 2)).loadWords 1 0 16 true)
        (fun u => decide ((withTile (descTile 2)).ownerOf u = 1)) = false ∧ (withTile (descTile 0)).ownerOf 0 = 1 := by
  decide

/-- Chain 7 over tiles 0 and 1: the head sends east, the tail takes from the west; and a leg that takes the inbox. -/
def headEntry : ChainEntry := { w0 := 0x0000000700100000, w1 := 0x0000001000010001, w2 := 0, ready := true }
def tailEntry : ChainEntry := { w0 := 0x0000000705000000, w1 := 0x0000001000010001, w2 := 1 }
def inboxEntry : ChainEntry := { w0 := 0x0000000705400000, w1 := 0x0000001000010001, w2 := 1 }

/-- panel1 with the tail waiting at tile 1. -/
def chainPanel : State := { panel1 with tiles := [(1, { chains := [tailEntry] })] }

/-- A whole result of chain 7 in the inbox of partition 1. -/
def inboxPart : Part :=
  { run := some { id := 1 }, chainIn := [{ id := 7, step := 0, lead := 1, op := 0, parts := [(0, List.replicate 8 0)], total := some 8 }] }

/-- panel1 whose partition holds a whole result of chain 7 in its inbox, and tile 0 the leg that takes it. -/
def inboxPanel : State :=
  { panel1 with tiles := [(0, { chains := [inboxEntry] })],
                parts := [(1, inboxPart)] }

theorem witness_ChainQueueCompletes :
    (panel1.canIssue 0 = true ∧ panel1.chainFits 0 0x0000000700100000 0x0000001000010001 0 = true ∧ (panel1.tile 0).chains.length < 2) ∧
    (panel1.chainCut 1 (ChainWords.ofWords 0x0000000700100000 0x0000001000010001 0) = false ∧
      panel1.chainCut 1 (ChainWords.ofWords 0x0000000705400000 0x0000001000010001 1) = true ∧
      panel1.chainFits 0 0x0000000705400000 0x0000001000010001 1 = true) ∧
    (1 ∈ chainPanel.tilesOf (chainPanel.ownerOf 0) ∧ tailEntry ∈ (chainPanel.tile 1).chains ∧ tailEntry.names 7 0 = true ∧ tailEntry.token = true ∧
      onMesh tailEntry.words.inDir = true ∧ dirTile 1 tailEntry.words.inDir = 0 ∧ chainPanel.legsOpen (chainPanel.ownerOf 0) = true) := by
  decide

/-- A first flit of chain 7 for the tail from the west: the lead word and its entry, padded (R101, R102). -/
def flit7 (seg : Nat) : Nat × ChainFlit := (4, ⟨fitBytes 256 (leBytes 4 seg ++ leBytes 2 7)⟩)

theorem witness_ChainLegsComplete :
    (((withTile { chains := [headEntry] }).tile 0).chains = headEntry :: [] ∧ headEntry.energy = false ∧ headEntry.token = true ∧
      headEntry.words.legHead = true ∧ (withTile { chains := [headEntry] }).legsOpen 1 = true ∧ headEntry.words.inDir ≠ 5) ∧
    ((inboxPanel.tile 0).chains = inboxEntry :: [] ∧ inboxEntry.words.inDir = 5 ∧ inboxEntry.words.legHead = true ∧ inboxEntry.token = true ∧
      inboxPanel.part 1 = some inboxPart ∧
      8 = 8 * inboxEntry.words.entries ∧ partsCover 0 8 [(0, List.replicate 8 (0 : Byte))] = true ∧ 1 = inboxEntry.words.segFirst) ∧
    ((withTile { chains := [tailEntry], vc1 := [flit7 1] }).tile 0).vc1.find? (fun f => decide (f.1 = tailEntry.words.inDir)) = some (flit7 1) ∧
    tailEntry.words.accepts (Lead.ofBytes (flit7 1).2.data) = true ∧ 8 + tailEntry.words.packed ≤ (flit7 1).2.data.length ∧
    tailEntry.started = false ∧ onMesh tailEntry.words.inDir = true ∧
    ({ tailEntry with w1 := 0x0000001010000001 } : ChainEntry).words.entries = 4096 ∧
    (flit7 1).2.data.length < 8 + ({ tailEntry with w1 := 0x0000001010000001 } : ChainEntry).words.packed ∧
    tailEntry.words.accepts (Lead.ofBytes (flit7 2).2.data) = false := by
  decide +kernel

/-- A control block at line 0: SPARSE, SPIN, one colour of no records, INT8 couplings, a schedule of one sweep at line 16, no trace. -/
def seqTile : TileState := { sram := [(5, 0x0B), (6, 0x04), (22, 0x10), (1028, 1)] }

def seqWords : List Word := (List.range 8).map fun i => BitVec.ofNat 64 (seqTile.sram.nat (8 * i) 8)

/-- Tile 0 as SU_RUN on the block at line 0 leaves it. -/
def seqStarted (x : TileState) : State :=
  let words := (List.range 8).map fun i => BitVec.ofNat 64 (x.sram.nat (8 * i) 8)
  ((withTile x).took 1 0).updTile 0 fun y => (y.suMode (SeqState.start words (SeqCopy.read x.sram 0 words) 0 0)).ringPull

/-- The same block streamed, one record in a ring of three lines at line 0x20 that nothing has written yet. -/
def streamTile : TileState := { sram := [(5, 0x0B), (6, 0x04), (7, 0x10), (22, 0x10), (30, 0x20), (44, 3), (68, 1), (1028, 1)] }

def streamWords : List Word := (List.range 8).map fun i => BitVec.ofNat 64 (streamTile.sram.nat (8 * i) 8)

theorem witness_SuRunCompletes :
    (withTile seqTile).canIssue 0 = true ∧ singleOk (ins 0x09 false [0]) = true ∧ ((withTile seqTile).tile 0).array.idle = true ∧
    ((withTile seqTile).tile 0).seq.phase = .idle ∧ ((withTile seqTile).tile 0).array.stopped = false ∧
    ((withTile seqTile).front 0).sram = seqTile.sram ∧ (withTile seqTile).ownerOf 0 = 1 ∧
    (SeqCopy.read seqTile.sram 0 seqWords).ready ((seqStarted seqTile).tile 0).seq.got 15 = true ∧
    (SeqCopy.read seqTile.sram 0 seqWords).check ((seqStarted seqTile).tile 0).sram ((seqStarted seqTile).tile 0).seq.got 0 seqWords
      (withTile seqTile).panel (fun v => decide ((withTile seqTile).ownerOf v = 1)) = .ok ∧
    (withTile streamTile).canIssue 0 = true ∧ (SeqCopy.read streamTile.sram 0 streamWords).ready ((seqStarted streamTile).tile 0).seq.got 15 = false ∧
    (SeqCopy.read streamTile.sram 0 streamWords).formOk 0 streamWords (withTile streamTile).panel
      (fun v => decide ((withTile streamTile).ownerOf v = 1)) = true := by
  decide

/-- The copied block of a run of two colours whose one peer is tile 1 of this panel; a halo of eight slots; two staging lines. -/
def copy1 : SeqCopy :=
  { ctl := SeqCtl.ofWords [0x00044B0000000000, 0, 0x0010000000000000, 0, 0x0020000200000000, 0x0000000000300001],
    dirs := [⟨0, 0, 0, 0, 0, 8, 0, 0⟩], sched := [⟨0, 1⟩], peers := [⟨0xFFFF, 1⟩], exports := [] }

def runTile (q : SeqState) (su : List (Nat × SuFlit)) : TileState := { seq := { q with copy := some copy1, phase := .run }, su := su }

theorem witness_ExchangeCompletes :
    (takeFrom 1 ((withTile (runTile {} [(1, .value 0 3 1)])).tile 0).su = some (.value 0 3 1, []) ∧
      ((withTile (runTile {} [(1, .value 0 3 1)])).tile 0).seq.active = true ∧
      (if copy1.ctl.dense then 520 else 8) * ((((withTile (runTile {} [(1, .value 0 3 1)])).tile 0).seq.stage (halfOf 0)).length + 1) ≤
        copy1.ctl.stageLines * 64) ∧
    (takeFrom 1 ((withTile (runTile {} [(1, .endMark 0)])).tile 0).su = some (.endMark 0, []) ∧
      ((withTile (runTile {} [(1, .endMark 0)])).tile 0).seq.step ≤ 0 ∧ ((withTile (runTile {} [(1, .endMark 0)])).tile 0).seq.waits = false ∧
      ∃ r ∈ copy1.peers, r.panel = (withTile (runTile {} [(1, .endMark 0)])).panel ∧ r.tile = 1) ∧
    (takeFrom 2 ((withTile (runTile {} [(2, .endMark 0)])).tile 0).su = some (.endMark 0, []) ∧
      ((withTile (runTile {} [(2, .endMark 0)])).tile 0).seq.waits = false ∧
      ∀ r ∈ copy1.peers, ¬ (r.panel = (withTile (runTile {} [(2, .endMark 0)])).panel ∧ r.tile = 2)) ∧
    ((withTile { seq := { copy := some copy1, phase := .halt } }).tile 0).seq.waits = true := by
  decide

/-- Step 1 of a sweep is computed, and END of the peer is there. -/
def endsTile : TileState := runTile { step := 1, waitEnd := true, ends0 := [1], ends1 := [1], stage0 := [(7, 1)], stage1 := [(7, 1)] } []

theorem witness_StagingCopyCompletes :
    ((withTile endsTile).tile 0).seq.copy = some copy1 ∧ ((withTile endsTile).tile 0).seq.active = true ∧
    ((withTile endsTile).tile 0).riffleStop = false ∧ ((withTile endsTile).tile 0).seq.phase = .run ∧
    ((withTile endsTile).moveHalos 1 0 copy1).sentAll 1 0 = true ∧
    (withTile endsTile).seqMay ((withTile endsTile).ownerOf 0) = true ∧ ((withTile endsTile).tile 0).seq.waitEnd = true ∧
    (((withTile endsTile).moveHalos 1 0 copy1).tile 0).seq.active = true ∧ ((withTile endsTile).moveHalos 1 0 copy1).allEnds 1 0 copy1 = true ∧
    ((withTile endsTile).tile 0).seq.step ≠ 0 ∧ ((withTile endsTile).tile 0).seq.colour + 1 < copy1.ctl.ncol ∧
    ∀ e ∈ ((withTile endsTile).tile 0).seq.stage (halfOf ((withTile endsTile).tile 0).seq.step), copy1.importOk e.1 = true := by
  decide

theorem witness_TraceRdCompletes : ∀ t ∈ panel1.tilesOf (panel1.ownerOf 0), (panel1.tile t).seq.traceWait = false := by decide

/-! ## Witnesses: barriers, the mesh, HBM -/

/-- panel1 with tiles in the given barrier states. -/
def barPanel (l : List (Nat × BarState)) : State := { panel1 with tiles := l.map fun e => (e.1, { bar := e.2 }) }

theorem witness_BarrierCompletes :
    (panel1.rect (panel1.ownerOf 1) = some rect1 ∧ panel1.canIssue 1 = true ∧
      ((rect1.barFrom 1).all fun t => (panel1.tile 1).bar.held.any fun h => decide (h.1 = t)) = false) ∧
    (∀ kind : Bool, ((barPanel [(0, { issued := some kind, sent := true })]).tile 0).bar.issued = some kind ∧ rect1.has 0 = true ∧
      rect1.barNext 0 = some 1 ∧ rect1.barNext 3 = some 51 ∧ ((barPanel [(0, { issued := some kind, sent := true })]).tile 0).bar.sent = true ∧
      ((barPanel [(0, { issued := some kind, sent := true })]).tile 0).bar.release = none ∧
      ((barPanel [(0, { issued := some kind, sent := true })]).tile 1).bar.held.any (fun h => decide (h.1 = 0)) = false) ∧
    (∀ kind : Bool, ((barPanel [(1, { issued := some kind, sent := true, release := some false })]).tile 1).bar.release = some false ∧
      ((barPanel [(1, { issued := some kind, sent := true, release := some false })]).tile 1).bar.issued = some kind) := by
  decide

/-- The whole gather of a STEP stands at the north-east tile, 147. -/
def stepPanel : State := barPanel [(147, { issued := some true, held := [(146, true, false), (99, true, false)], sent := true })]

theorem witness_BarrierReleasePath :
    1 ∈ rect1.barFrom 2 ∧ 99 ∈ rect1.barFrom 147 ∧ 5 ≠ 2 ∧ 5 ∉ rect1.barFrom 2 ∧
    stepPanel.rect 1 = some rect1 ∧ rect1.northEast = 147 ∧ stepPanel.ownerOf 147 = 1 ∧ stepPanel.part 1 = some { run := some { id := 1 } } ∧
    stepPanel.running 1 = some ({ id := 1 }, job1) ∧ (stepPanel.tile 147).bar.release = none ∧ (stepPanel.tile 147).bar.sent = true ∧
    ({ run := some { id := 1 } } : Part).dispatching = true ∧ (stepPanel.tile 147).bar.failed = false ∧
    (stepPanel.tile 147).bar.issued = some true ∧ bit job1.flags 4 = false ∧ stepPanel.mayAdvance 1 = true := by
  decide

/-- A flit of partition 1 from router (1, 0) to another. -/
def flitTo (t : FlitType) (x y : Nat) (reqs : List Requester := []) : Flit :=
  { vc := 2, type := t, part := 1, dstX := x, dstY := y, srcX := 1, srcY := 0, line := 0xFBFC, reqs := reqs }

def req1 : Requester := ⟨1, 0, 0, 5⟩
def req2 : Requester := ⟨0, 1, 0, 6⟩

/-- A router that holds a request to merge with. -/
def waitPanel : State := { panel1 with mesh := { routers := [(physIx 0 0, { waiting := [flitTo .readReq 2 0 [req1]] })] } }

/-- panel1 with a flit on its way to router (0, 0), from the router west of it. -/
def flitPanel (f : Flit) : State := { panel1 with mesh := { flight := [⟨(0, 0), .east, f⟩] } }

/-- panel1 whose ferry slot 3 of tile 0 copies to line 0 of tile 1 and waits for its fence. -/
def fencePanel : State := { panel1 with tiles := [(0, { ferry := { slots := [(3, { words := [BitVec.ofNat 64 (2 ^ 57), 0, BitVec.ofNat 64 (2 ^ 32)] })] } })] }

/-- panel1 whose partition maps frame 5 as its page 0. -/
def framePanel : State := { panel1 with parts := [(1, { ptes := [(0, mkPte true 0 false true 5)] })] }

theorem witness_FlitsComplete :
    (∀ t ∈ [FlitType.write, .readReq, .readRsp, .rspList, .ack], (flitTo t 0 0 [req1]).headerOk = true) ∧
    (Claim.arrives panel1 0 0 .here (flitTo .write 0 0) ∧ (panel1.land 0 0 (flitTo .write 0 0)).outOf .here 0 0 (flitTo .write 0 0) = .here ∧
      (panel1.land 0 0 (flitTo .write 0 0)).logicalAt 0 0 = some 0 ∧ (flitTo .write 0 0).space ≠ 1 ∧
      (panel1.land 0 0 (flitTo .write 0 0)).mayWrite 0 0 (flitTo .write 0 0) = true ∧
      ((flitTo .write 0 0).lineList.any fun i => decide (0xFC00 ≤ (flitTo .write 0 0).line + i)) = false) ∧
    (Claim.arrives (flitPanel (flitTo .write 2 0)) 0 0 .east (flitTo .write 2 0) ∧
      ((flitPanel (flitTo .write 2 0)).land 0 0 (flitTo .write 2 0)).outOf .east 0 0 (flitTo .write 2 0) = .east ∧
      ((flitPanel (flitTo .write 2 0)).land 0 0 (flitTo .write 2 0)).mayCross 0 0 .east (flitTo .write 2 0) = true) ∧
    (Claim.arrives panel1 0 0 .here { flitTo .write 0 0 with toPort := some 8 } ∧
      panel1.outOf .here 0 0 { flitTo .write 0 0 with toPort := some 8 } = .here) ∧
    ((flitTo .readReq 0 0 [req1]).listOk = true ∧ Claim.arrives (panel1.leaveWaiting 0 0 (flitTo .readReq 0 0 [req1])) 0 0 .here (flitTo .readReq 0 0 [req1]) ∧
      ((panel1.leaveWaiting 0 0 (flitTo .readReq 0 0 [req1])).land 0 0 (flitTo .readReq 0 0 [req1])).routeFrom .here 0 0 0 0 = .here) ∧
    (Claim.arrives (panel1.leaveWaiting 0 0 (flitTo .readReq 2 0 [req1])) 0 0 .here (flitTo .readReq 2 0 [req1]) ∧
      ((panel1.leaveWaiting 0 0 (flitTo .readReq 2 0 [req1])).land 0 0 (flitTo .readReq 2 0 [req1])).routeFrom .here 0 0 2 0 = .east ∧
      ((panel1.leaveWaiting 0 0 (flitTo .readReq 2 0 [req1])).land 0 0 (flitTo .readReq 2 0 [req1])).mayCross 0 0 .east (flitTo .readReq 2 0 [req1]) = true ∧
      mergeInto (flitTo .readReq 2 0 [req1])
        (((panel1.leaveWaiting 0 0 (flitTo .readReq 2 0 [req1])).land 0 0 (flitTo .readReq 2 0 [req1])).router 0 0).waiting = none) ∧
    (bit (((waitPanel.leaveWaiting 0 0 (flitTo .readReq 2 0 [req2])).land 0 0 (flitTo .readReq 2 0 [req2])).router 0 0).ctrl.toNat 5 = true ∧
      mergeInto (flitTo .readReq 2 0 [req2])
        (((waitPanel.leaveWaiting 0 0 (flitTo .readReq 2 0 [req2])).land 0 0 (flitTo .readReq 2 0 [req2])).router 0 0).waiting =
        some [flitTo .readReq 2 0 [req1, req2]]) := by
  unfold Claim.arrives
  decide

theorem witness_FlitAnswers :
    (flitTo .rspList 0 0 [req1]).listOk = true ∧ Claim.arrives panel1 0 0 .here (flitTo .rspList 0 0 [req1]) ∧
    (Claim.arrives panel1 0 0 .here (flitTo .readRsp 0 0) ∧ (panel1.land 0 0 (flitTo .readRsp 0 0)).routeFrom .here 0 0 0 0 = .here ∧
      (panel1.land 0 0 (flitTo .readRsp 0 0)).takesWrite 0 0 ((panel1.land 0 0 (flitTo .readRsp 0 0)).received (flitTo .readRsp 0 0)) = true) ∧
    ((panel1.land 0 0 (flitTo .readRsp 2 0)).routeFrom .here 0 0 2 0 = .east ∧
      (panel1.land 0 0 (flitTo .readRsp 2 0)).mayCross 0 0 .east (flitTo .readRsp 2 0) = true) ∧
    (Claim.arrives fencePanel 0 0 .here { flitTo .ack 0 0 with tag := 3 } ∧
      (fencePanel.land 0 0 { flitTo .ack 0 0 with tag := 3 }).routeFrom .here 0 0 0 0 = .here ∧
      (fencePanel.land 0 0 { flitTo .ack 0 0 with tag := 3 }).logicalAt 0 0 = some 0 ∧ fencePanel.ownerOf 0 = 1 ∧
      fencePanel.fenceFrom 1 0 3 1 0 = true) := by
  unfold Claim.arrives
  decide

/-- A WRITE of partition 1 to block 0 of frame 5, at the router of site 0 that owns it. -/
def hbmWrite : Flit := { flitTo .write 4 12 with target := 2 ^ 62 + 5 * 2 ^ 21 }

theorem witness_HbmWrite :
    Claim.arrives framePanel 4 12 .here hbmWrite ∧ (framePanel.land 4 12 hbmWrite).outOf .here 4 12 hbmWrite = .here ∧ hbmWrite.space = 1 ∧
    (framePanel.land 4 12 hbmWrite).pageAt hbmWrite.addr = some (1, 0, mkPte true 0 false true 5) ∧
    ownsHpa 4 12 (writeBlock (mkPte true 0 false true 5) hbmWrite.addr) = true ∧
    (framePanel.land 4 12 hbmWrite).blockHeld (mkPte true 0 false true 5) hbmWrite.addr = true := by
  unfold Claim.arrives
  decide

/-- The link from tile (3, 0) of partition 1 to the tile east of it is a fence; PART 65 does not exist. -/
theorem witness_FencesDrop :
    ({ flitTo .write 4 0 with part := 65 } : Flit).headerOk = false ∧ Claim.arrives panel1 3 0 .here { flitTo .write 4 0 with part := 65 } ∧
    (flitTo .write 4 0).headerOk = true ∧ Claim.arrives panel1 3 0 .here (flitTo .write 4 0) ∧
    (panel1.land 3 0 (flitTo .write 4 0)).outOf .here 3 0 (flitTo .write 4 0) = .east ∧
    (panel1.land 3 0 (flitTo .write 4 0)).isFence 3 0 .east = true ∧ (flitTo .write 4 0).vc ≠ 3 ∧
    panel1.cameOver 3 0 { flitTo .write 4 0 with headLost := true } = some .here := by
  unfold Claim.arrives
  decide

theorem witness_RouterQueuesComplete :
    (({ panel1 with mesh := { routers := [(physIx 0 0, { fork := [(.east, flitTo .readRsp 2 0)] })] } } : State).router 0 0).fork =
      (.east, flitTo .readRsp 2 0) :: [] ∧
    (({ panel1 with mesh := { routers := [(physIx 0 0, { reissue := [flitTo .readReq 2 0 [req1]] })] } } : State).router 0 0).reissue =
      flitTo .readReq 2 0 [req1] :: [] := by
  decide

theorem witness_MergeKeepsRequesters :
    mergeInto (flitTo .readReq 2 0 (List.replicate 8 req1)) [flitTo .readReq 2 0 (List.replicate 8 req1)] =
      some [flitTo .readReq 2 0 (List.replicate 16 req1)] ∧
    mergeInto (flitTo .readReq 2 0 (List.replicate 9 req1)) [flitTo .readReq 2 0 (List.replicate 8 req1)] = none := by
  decide

theorem witness_LinksAndRegistersComplete :
    (panel1.mesh.links.getD 463 {}).disabled = false ∧ panel1.unitsOff 4 0 = true ∧ panel1.unitsOff 3 3 = false := by decide

/-- A partition of two pages: a valid level-1 entry, page 0 as given, page 1 first-touch, frame 9 in reserve. -/
def pagePart (e : Word) : Part :=
  { run := some { id := 1 }, vaLimit := 4194304, level1 := [(0, 0x8000000000000000)], ptes := [(0, e)], touch := true,
    reserve := [9] }

/-- A descriptor in slot 63: FP32 elements from HBM at an address to a space, n runs of one element. -/
def hbmSlot (dst n va : Nat) : Slot :=
  { words := [BitVec.ofNat 64 (0x0411000000200000 + dst * 2 ^ 56), BitVec.ofNat 64 va, 0, BitVec.ofNat 64 (2 ^ 32 + n * 2 ^ 16 + 1), 0, 0, 0, 0],
    phase := .run }

def hbmPanel (x : Part) (sl : Slot) (tlb : List (Nat × Word)) : State :=
  { panel1 with parts := [(1, x)], tiles := [(0, { ferry := { slots := [(63, sl)], tlb := tlb } })] }

def pte5 : Word := mkPte true 0 false true 5

theorem witness_PageWalkCompletes :
    ((hbmPanel (pagePart pte5) (hbmSlot 0 1 0) []).part 1 = some (pagePart pte5) ∧ (hbmSlot 0 1 0).wantsHbm = true ∧
      missing (pagePart pte5) [] (hbmSlot 0 1 0).pages = some (0, 0, false) ∧ pteReserved ((pagePart pte5).pte 0) = false ∧
      pteLock ((pagePart pte5).pte 0) = false ∧ pteValid ((pagePart pte5).pte 0) = true ∧
      (hbmPanel (pagePart pte5) (hbmSlot 0 1 0) []).frameBad ((pagePart pte5).pte 0) = false) ∧
    ((hbmSlot 0 1 0x3FFFFC).wantsHbm = true ∧ missing (pagePart pte5) [] (hbmSlot 0 1 0x3FFFFC).pages = some (1, 0x3FFFFC, false) ∧
      pteReserved ((pagePart pte5).pte 1) = false ∧ pteLock ((pagePart pte5).pte 1) = false ∧ pteValid ((pagePart pte5).pte 1) = false ∧
      pteTouch ((pagePart pte5).pte 1) = true) ∧
    (pteLock ((pagePart (pteSet pte5 59 true)).pte 0) = true ∧ pteReserved ((pagePart (pteSet pte5 59 true)).pte 0) = false) ∧
    ({ hbmSlot 0 1 0 with locked := true } : Slot).phase = .run ∧
    (level1Reserved ((pagePart pte5).level1.getD 0 0) = false ∧ pteValid ((pagePart pte5).level1.getD 0 0) = true) ∧
    (level1Reserved (({ pagePart pte5 with level1 := [] } : Part).level1.getD 0 0) = false ∧
      pteValid (({ pagePart pte5 with level1 := [] } : Part).level1.getD 0 0) = false ∧
      missing { pagePart pte5 with level1 := [] } [] (hbmSlot 0 1 0).pages = some (0, 0, false)) := by
  decide

theorem witness_FirstTouchCompletes :
    pteValid ((pagePart pte5).pte (({ hbmSlot 0 1 0x200000 with phase := .faultWait, faultVa := 0x200000 } : Slot).faultVa / 2 ^ 21)) = false ∧
    (pagePart pte5).dispatching = true ∧ ({ pagePart pte5 with hold := .rest } : Part).dispatching = false ∧ pteValid ((pagePart pte5).pte 0) = true ∧
    (pagePart pte5).reserve = 9 :: [] ∧ ({ pagePart pte5 with reserve := [] } : Part).reserve = [] := by decide

theorem witness_HbmRequestCompletes :
    (∀ d ∈ [(0, 1), (3, 1), (3, 2)],
      (hbmSlot d.1 d.2 0).desc.src ≠ 3 ∧ (pagePart pte5).hold ≠ .rest ∧
      ((hbmPanel (pagePart pte5) (hbmSlot d.1 d.2 0) [(0, pte5)]).tile 0).ferryStalls (hbmSlot d.1 d.2 0).desc = false ∧ (hbmSlot d.1 d.2 0).wantsHbm = true ∧ missing (pagePart pte5) [(0, pte5)] (hbmSlot d.1 d.2 0).pages = none ∧
      (pagePart pte5).hitFault [(0, pte5)] (hbmSlot d.1 d.2 0).pages = none ∧
      ((hbmPanel (pagePart pte5) (hbmSlot d.1 d.2 0) [(0, pte5)]).accessAll 1 .clean (usedEntries [(0, pte5)] (hbmSlot d.1 d.2 0).pages)).2 = none) ∧
    (hbmSlot 0 1 0).desc.dst ≠ 3 ∧ (hbmSlot 3 1 0).desc.chunkEnd (hbmSlot 3 1 0).cursor = (hbmSlot 3 1 0).desc.total ∧
    (hbmSlot 3 2 0).desc.chunkEnd (hbmSlot 3 2 0).cursor ≠ (hbmSlot 3 2 0).desc.total := by
  decide

theorem witness_PteChangeCompletes :
    (hbmPanel (pagePart pte5) {} []).changeOk ((pagePart pte5).pte 0) (mkPte true 1 false false 5) = true ∧
    7 ∈ ((withTile { ferry := { invalidating := [7] } }).tile 0).ferry.invalidating := by decide

/-- Stack 47 is the last site of BUILD M; page 8 of parity group 0 makes its frame set a parity set. -/
theorem witness_ControllersComplete :
    panel1.fuses.hasStack 47 = true ∧ panel1.stackUp 47 = true ∧ (panel1.frameOwner (47 * 2 ^ 36 / 2 ^ 21)).2 = false ∧
    (({ panel1 with hbm := { owned := [(frameKey true 0, 1)] } } : State).frameOwner 0).2 = true ∧
    ((List.range 8).any fun i => panel1.hbm.lost i) = false ∧
    (({ panel1 with hbm := { stackTab := [(3, { lost := true })] } } : State).hbm.lost 3) = true := by decide

theorem served_SessionFramesComplete :
    (Served 0x03 (fun _ _ => True)) :=
  served_of panelH 0x03 (frameOf 1 ([])) _ (by decide) (by decide) (trivial)

theorem served_LoadsComplete :
    (Served 0x10 (fun u r => field r.payload 0 1 ≤ 2 ∧ r.payload.length = (if field r.payload 0 1 = 2 then 17 else 9) ∧ (field r.payload 0 1 = 0 ↔ r.box = 0) ∧ u.trust.bootLocked = false ∧ (u.box r.box).openLoad = none ∧ (field r.payload 0 1 = 0 → u.firm.phase = .idle ∧ u.firm.starting = false) ∧ (r.box ≠ 0 → (u.part r.box).isSome = true))) ∧
    (∃ (l : OpenLoad) (data : List Byte), Served 0x11 (fun u r => (u.box r.box).openLoad = some l ∧ u.trust.bootLocked = false ∧ 8 ≤ r.payload.length ∧ (l.target = 0 → data = r.payload.drop 8) ∧ (l.target ≠ 0 → u.openData r (r.payload.drop 8) = some data) ∧ field r.payload 0 8 + data.length ≤ l.length)) ∧
    (∃ (l : OpenLoad), Served 0x12 (fun u r => (u.box r.box).openLoad = some l ∧ u.trust.bootLocked = false ∧ r.payload = [] ∧ (joinChunks 0 l.chunks).length = l.length)) ∧
    (Served 0x60 (fun _ r => r.payload.length = 16 ∧ field r.payload 0 1 = 0 ∧ zeroBytes r.payload 1 1 = true ∧ field r.payload 4 4 ≤ 16777216 ∧ r.box = 0)) ∧
    (Served 0x60 (fun u r => r.payload.length = 16 ∧ field r.payload 0 1 = 1 ∧ zeroBytes r.payload 1 1 = true ∧ field r.payload 4 4 ≤ 16777216 ∧ r.box ≠ 0 ∧ (u.tilesOf r.box).contains (field r.payload 2 2) = true ∧ 0xFC00 ≤ field r.payload 8 8 ∧ field r.payload 8 8 * 64 + field r.payload 4 4 ≤ 0xFE00 * 64)) ∧
    (∃ x : Part, Served 0x60 (fun u r => r.payload.length = 16 ∧ field r.payload 0 1 = 2 ∧ zeroBytes r.payload 1 1 = true ∧ field r.payload 4 4 ≤ 16777216 ∧ u.part r.box = some x ∧ x.sealed_ = none ∧ x.rangeMapped (field r.payload 8 8) (field r.payload 4 4) = true)) :=
  ⟨served_of panelH 0x10 (frameOf 1 ([2] ++ beBytes 8 0x200000 ++ beBytes 8 0)) _ (by decide) (by decide) (by decide),
    ⟨load0, [1], served_of (boxH { box1 with openLoad := some load0 }) 0x11 (frameOf 0 (beBytes 8 7 ++ [1])) _ (by decide) (by decide) (by decide)⟩,
    ⟨load1, served_of (boxH { box1 with openLoad := some load1 }) 0x12 (frameOf 0 ([])) _ (by decide) (by decide) (by decide)⟩,
    served_of panelH 0x60 (frameOf 0 ([0, 0, 0, 0] ++ beBytes 4 16777216 ++ beBytes 8 0)) _ (by decide) (by decide) (by decide),
    served_of panelH 0x60 (frameOf 1 ([1, 0] ++ beBytes 2 147 ++ beBytes 4 64 ++ beBytes 8 0xFDFF)) _ (by decide) (by decide) (by decide),
    ⟨pagePart pte5, served_of ({ panelH with parts := [(1, pagePart pte5)] } : State) 0x60 (frameOf 1 ([2, 0, 0, 0] ++ beBytes 4 8 ++ beBytes 8 0x1FFFF8)) _ (by decide) (by decide) (by decide)⟩⟩

theorem served_ActivationCompletes :
    (∃ (g : Image) (st : Status), Served 0x13 (fun u r => r.payload.length = 8 ∧ zeroBytes r.payload 4 4 = true ∧ u.firm.phase = .idle ∧ g = imageOf (u.firm.stagedBytes.take (field r.payload 0 4)) ∧ st = (if u.firm.stagedBytes.length < field r.payload 0 4 then .badFormat else if u.checkImage (u.firm.stagedBytes.take (field r.payload 0 4)) ≠ .ok then u.checkImage (u.firm.stagedBytes.take (field r.payload 0 4)) else if u.firm.image.any (fun run => decide (run.handVer.toNat < g.handMin.toNat ∨ g.handVer.toNat < run.handVer.toNat)) then .refused else .ok))) ∧
    (∃ g : Image, Served 0x14 (fun u r => r.payload.length = 36 ∧ field r.payload 32 1 = 0 ∧ zeroBytes r.payload 33 1 = true ∧ field r.payload 34 2 ≠ 0 ∧ u.firm.staged = some g ∧ g.digest = r.payload.take 32 ∧ u.firm.phase = .idle ∧ u.power.emergency = false)) ∧
    (Served 0x14 (fun u r => r.payload.length = 36 ∧ field r.payload 32 1 = 1 ∧ zeroBytes r.payload 33 1 = true ∧ field r.payload 34 2 = 0 ∧ u.firm.phase = .waiting)) :=
  ⟨⟨_, _, served_of panelH 0x13 (frameOf 0 (List.replicate 8 0)) _ (by decide) (by decide) (⟨by decide, by decide, by decide, rfl, rfl⟩)⟩,
    ⟨image1, served_of ({ panelH with firm := { mode := .run, staged := some image1 } } : State) 0x14 (frameOf 0 (List.replicate 32 1 ++ [0, 0] ++ beBytes 2 1)) _ (by decide) (by decide) (by decide)⟩,
    served_of ({ panelH with firm := { mode := .run, phase := .waiting } } : State) 0x14 (frameOf 0 (List.replicate 32 0 ++ [1, 0, 0, 0])) _ (by decide) (by decide) (by decide)⟩

theorem served_BringUpCompletes :
    (Served 0x80 (fun _ r => r.payload.length = 4 ∧ field r.payload 2 2 ≠ 0 ∧ field r.payload 0 2 + field r.payload 2 2 ≤ 512)) ∧
    (Served 0x81 (fun u r => r.payload.length = 16 ∧ zeroBytes r.payload 2 2 = true ∧ pregOwner (field r.payload 0 2) = 2 ∧ (u.preg (field r.payload 0 2)).worn = false ∧ (u.preg (field r.payload 0 2)).wcount.toNat = field r.payload 4 4)) :=
  ⟨served_of panelH 0x80 (frameOf 0 (beBytes 2 511 ++ beBytes 2 1)) _ (by decide) (by decide) (by decide),
    served_of panelH 0x81 (frameOf 0 (beBytes 2 447 ++ [0, 0] ++ beBytes 4 0 ++ beBytes 8 5)) _ (by decide) (by decide) (by decide)⟩

theorem served_KeyExchangesComplete :
    (Served 0x20 (fun u r => r.payload.length = 36 ∧ field r.payload 0 1 = 0 ∧ zeroBytes r.payload 1 3 = true ∧ u.trust.identity ≠ none ∧ u.ent.state = .run)) ∧
    (∃ (o : MbxOffer) (ok : Bool) (ct key kd t2 : List Byte), Served 0x20 (fun u r => r.payload.length = 4649 ∧ field r.payload 0 1 = 1 ∧ zeroBytes r.payload 1 3 = true ∧ (u.box r.box).offer = some o ∧ field r.payload 4 4 = o.sess.toNat ∧ ct = (r.payload.drop 8).take 1568 ∧ key = (r.payload.drop 1576).take 1793 ∧ kd = digest256 key ∧ t2 = digest256 (o.t1 ++ digest256 ct) ∧ ok = (u.hostKeyOk r.box kd && Config.falconVerify key t2 (r.payload.drop 3369)))) ∧
    (Served 0x20 (fun u r => r.box = 0 ∧ r.payload.length = 8 ∧ field r.payload 0 1 = 2 ∧ zeroBytes r.payload 1 3 = true ∧ zeroBytes r.payload 6 2 = true ∧ u.trust.identity ≠ none ∧ u.ent.state = .run)) ∧
    (∃ (ok : Bool) (m : List Byte), Served 0x20 (fun u r => r.box = 0 ∧ field r.payload 0 1 = 3 ∧ zeroBytes r.payload 1 3 = true ∧ m = r.payload.drop 4 ∧ m.length = 7616 ∧ field m 9 1 = 0 ∧ zeroBytes m 10 6 = true ∧ u.trust.identity ≠ none ∧ u.linkRoom (field m 0 2) = true ∧ u.ent.state = .run ∧ ok = u.linkVerify [] m)) ∧
    (∃ (ok : Bool) (m : List Byte) (o : List Byte × List Byte), Served 0x20 (fun u r => r.box = 0 ∧ field r.payload 0 1 = 4 ∧ zeroBytes r.payload 1 3 = true ∧ m = r.payload.drop 4 ∧ m.length = 7616 ∧ field m 9 1 = 1 ∧ zeroBytes m 10 6 = true ∧ u.trust.linkOffers.find (field m 0 2) = some o ∧ u.linkRoom (field m 0 2) = true ∧ ok = u.linkVerify o.1 m)) ∧
    (Served 0x20 (fun u r => r.box = 0 ∧ r.payload.length = 8 ∧ field r.payload 0 1 = 5 ∧ zeroBytes r.payload 1 3 = true ∧ zeroBytes r.payload 6 2 = true ∧ u.trust.links.has (field r.payload 4 2) = true)) :=
  ⟨served_of ({ panelH with trust := { identity := some ([], []) }, ent := { state := .run } } : State) 0x20 (frameOf 1 ([0, 0, 0, 0] ++ List.replicate 32 0)) _ (by decide) (by decide) (by decide),
    ⟨offer1, _, _, _, _, _, served_of (boxH { box1 with offer := some offer1 }) 0x20 (frameOf 1 ([1, 0, 0, 0] ++ beBytes 4 1 ++ List.replicate 4641 0)) _ (by decide) (by decide +kernel) (⟨by decide +kernel, by decide, by decide, rfl, by decide, rfl, rfl, rfl, rfl, rfl⟩)⟩,
    served_of ({ panelH with trust := { identity := some ([], []) }, ent := { state := .run } } : State) 0x20 (frameOf 0 ([2, 0, 0, 0] ++ beBytes 2 7 ++ [0, 0])) _ (by decide) (by decide) (by decide),
    ⟨_, _, served_of ({ panelH with trust := { identity := some ([], []) }, ent := { state := .run } } : State) 0x20 (frameOf 0 ([3, 0, 0, 0] ++ List.replicate 7616 0)) _ (by decide) (by decide +kernel) (⟨by decide, by decide, by decide, rfl, by decide +kernel, by decide, by decide, by decide, by decide, by decide, rfl⟩)⟩,
    ⟨_, _, ([], []), served_of ({ panelH with trust := { linkOffers := [(0, ([], []))] } } : State) 0x20 (frameOf 0 ([4, 0, 0, 0] ++ List.replicate 9 0 ++ [1] ++ List.replicate 7606 0)) _ (by decide) (by decide +kernel) (⟨by decide, by decide, by decide, rfl, by decide +kernel, by decide, by decide, by decide, by decide, rfl⟩)⟩,
    served_of ({ panelH with trust := { links := [(7, ⟨7, [], 1, []⟩)] } } : State) 0x20 (frameOf 0 ([5, 0, 0, 0] ++ beBytes 2 7 ++ [0, 0])) _ (by decide) (by decide) (by decide)⟩

theorem served_AttestationCompletes :
    (∃ (scope p : Nat) (withKey : Bool), Served 0x21 (fun u r => r.payload.length = 36 ∧ field r.payload 0 1 = 0 ∧ field r.payload 1 1 = scope ∧ field r.payload 2 1 = p ∧ field r.payload 3 1 = bnat withKey ∧ (r.box = 0 → (scope = 0 ∧ p = 0) ∨ (scope = 1 ∧ 1 ≤ p ∧ p ≤ 64)) ∧ (r.box ≠ 0 → scope = 1 ∧ p = r.box) ∧ (withKey = true → scope = 1 ∧ u.releaseMode p = true) ∧ (scope = 1 → u.part p ≠ none) ∧ u.trust.identity ≠ none ∧ u.ent.state = .run)) ∧
    (∃ (scope p : Nat), Served 0x21 (fun u r => r.payload.length = 36 ∧ field r.payload 0 1 = 1 ∧ field r.payload 1 1 = scope ∧ field r.payload 2 1 = p ∧ field r.payload 3 1 = 0 ∧ (r.box = 0 → (scope = 0 ∧ p = 0) ∨ (scope = 1 ∧ 1 ≤ p ∧ p ≤ 64)) ∧ (r.box ≠ 0 → scope = 1 ∧ p = r.box) ∧ (scope = 1 → u.part p ≠ none) ∧ u.trust.cert ≠ [])) ∧
    (∃ (ok : Bool) (tok : List Byte), Served 0x21 (fun u r => r.box = 0 ∧ 36 ≤ r.payload.length ∧ field r.payload 0 1 = 2 ∧ field r.payload 1 1 = 0 ∧ field r.payload 2 1 = 0 ∧ field r.payload 3 1 = 0 ∧ tok = r.payload.drop 36 ∧ tok.length = 3173 ∧ zeroBytes tok 2 2 = true ∧ lifeStep (field tok 0 1) (field tok 1 1) true = true ∧ u.geom = [] ∧ ok = u.tokenOk tok)) :=
  ⟨⟨1, 1, true, served_of ({ panelH with parts := [(1, { flags := 2 })], trust := { identity := some ([], []) }, ent := { state := .run } } : State) 0x21 (frameOf 1 ([0, 1, 1, 1] ++ List.replicate 32 0)) _ (by decide) (by decide) (by decide)⟩,
    ⟨0, 0, served_of ({ panelH with trust := { cert := [1] } } : State) 0x21 (frameOf 0 ([1, 0, 0, 0] ++ List.replicate 32 0)) _ (by decide) (by decide) (by decide)⟩,
    ⟨_, _, served_of ({ panelH with geom := [], parts := [] } : State) 0x21 (frameOf 0 ([2, 0, 0, 0] ++ List.replicate 32 0 ++ [2, 3] ++ List.replicate 3171 0)) _ (by decide) (by decide +kernel) (⟨by decide, by decide +kernel, by decide, by decide, by decide, by decide, rfl, by decide +kernel, by decide, by decide, by decide, rfl⟩)⟩⟩

theorem served_KeyRotationCompletes :
    (∃ x : Part, Served 0x22 (fun u r => r.payload.length = 8 ∧ zeroBytes r.payload 0 8 = true ∧ u.trust.rotations.has r.box = false ∧ u.ent.state = .run ∧ u.part r.box = some x)) ∧
    (∃ (x : Part) (g : Program) (blk : List Byte) (k : List Byte × List Byte) (wk : Option (List Byte)) (src n dst : Nat), Served 0x23 (fun u r => u.part r.box = some x ∧ x.run = none ∧ x.program = some g ∧ src = field r.payload 16 8 ∧ n = field r.payload 24 8 ∧ dst = field r.payload 32 8 ∧ n % 65536 = 0 ∧ blk = r.payload.drop 40 ∧ rangesMeet src n dst (n / 65536 * 65520) = false ∧ x.rangeMapped src n = true ∧ x.rangeMapped dst (n / 65536 * 65520) = true ∧ bit x.flags 1 = true ∧ blk.length = 1616 ∧ u.trust.release.find r.box = some k ∧ wk = unwrapKey (Config.kemDecaps k.1 (blk.take 1568)) (r.payload.take 16) k.2 (blk.drop 1568))) :=
  ⟨⟨{ run := some { id := 1 } }, served_of ({ panelH with ent := { state := .run } } : State) 0x22 (frameOf 1 (List.replicate 8 0)) _ (by decide) (by decide) (by decide)⟩,
    ⟨{ flags := 2, program := some prog1, vaLimit := 4194304, ptes := [(0, pte5)] }, prog1, _, ([], []), _, 0, 65536, 65536, served_of ({ panelH with parts := [(1, { flags := 2, program := some prog1, vaLimit := 4194304, ptes := [(0, pte5)] })], trust := { release := [(1, ([], []))] } } : State) 0x23 (frameOf 1 (List.replicate 16 0 ++ beBytes 8 0 ++ beBytes 8 65536 ++ beBytes 8 65536 ++ List.replicate 1616 0)) _ (by decide) (by decide +kernel) (⟨by decide, rfl, rfl, by decide, by decide, by decide, by decide, rfl, by decide, by decide, by decide, by decide, by decide +kernel, by decide, rfl⟩)⟩⟩

theorem served_PartitionRequestsComplete :
    (∃ q : Rect, Served 0x32 (fun u r => r.payload = [] ∧ r.box ≠ 0 ∧ u.rect r.box = some q)) ∧
    (Served 0x32 (fun _ r => r.payload = [] ∧ r.box = 0)) ∧
    (Served 0x61 (fun _ r => r.payload.length = 8 ∧ field r.payload 0 1 ≤ 2 ∧ zeroBytes r.payload 1 3 = true)) ∧
    (∃ x : Part, Served 0x73 (fun u r => u.part r.box = some x ∧ r.payload.length = 16 ∧ field r.payload 0 1 = r.box ∧ field r.payload 9 1 = 0 ∧ zeroBytes r.payload 12 4 = true ∧ 1 ≤ field r.payload 1 1 ∧ field r.payload 1 1 ≤ 64 ∧ (field r.payload 2 2 = u.panel → field r.payload 1 1 ≠ field r.payload 0 1) ∧ 1 ≤ field r.payload 8 1 ∧ field r.payload 8 1 ≤ 16 ∧ field r.payload 10 2 ≠ 0 ∧ x.run = none ∧ x.pairing = none ∧ u.trib.lost.contains (field r.payload 2 2) = false)) ∧
    (∃ x : Part, Served 0x73 (fun u r => u.part r.box = some x ∧ r.payload.length = 16 ∧ field r.payload 0 1 = r.box ∧ field r.payload 9 1 = 1 ∧ zeroBytes r.payload 1 8 = true ∧ zeroBytes r.payload 10 2 = true ∧ zeroBytes r.payload 12 4 = true ∧ x.run = none)) :=
  ⟨⟨rect1, served_of panelH 0x32 (frameOf 1 ([])) _ (by decide) (by decide) (by decide)⟩,
    served_of panelH 0x32 (frameOf 0 ([])) _ (by decide) (by decide) (by decide),
    served_of panelH 0x61 (frameOf 1 ([2, 0, 0, 0] ++ beBytes 4 5)) _ (by decide) (by decide) (by decide),
    ⟨{}, served_of ({ panelH with parts := [(1, {})] } : State) 0x73 (frameOf 1 ([1, 2] ++ beBytes 2 0xFFFF ++ beBytes 4 9 ++ [16, 0] ++ beBytes 2 1 ++ [0, 0, 0, 0])) _ (by decide) (by decide) (by decide)⟩,
    ⟨{}, served_of ({ panelH with parts := [(1, {})] } : State) 0x73 (frameOf 1 ([1] ++ List.replicate 8 0 ++ [1] ++ List.replicate 6 0)) _ (by decide) (by decide) (by decide)⟩⟩

theorem served_JobsComplete :
    (∃ (x : Part) (g : Program) (j : Submit) (q : Rect), Served 0x40 (fun u r => bit r.flags 5 = false ∧ (u.box r.box).partials = [] ∧ r.payload.length ≤ 4096 + 131072 ∧ u.part r.box = some x ∧ u.rect r.box = some q ∧ j = Submit.of r.payload u.panel ∧ u.journal.duplicate r.box (field r.payload 0 8) = none ∧ j.bad r.payload u.panel = false ∧ u.submitRefused r.box x j = false ∧ x.program = some g ∧ g.chainMismatch (bit j.flags 1) = false ∧ (bit j.flags 4 = true → (u.box r.box).agreed.getLsbD 19 = true) ∧ (u.journal.jobs.filter fun e => decide (e.part = r.box)).length < 64 ∧ u.journal.nextId.toNat < 0xFFFFFFFE ∧ (bit j.flags 0 = true → u.ent.state = .run))) ∧
    (Served 0x40 (fun u r => bit r.flags 5 = true ∧ (u.box r.box).partials = [])) ∧
    (∃ (x : Part) (j : Job), Served 0x43 (fun u r => r.payload.length = 4 ∧ u.part r.box = some x ∧ u.journal.find (BitVec.ofNat 32 (field r.payload 0 4)) = some j ∧ j.part = r.box ∧ (j.state = 0 ∨ j.state = 3))) ∧
    (∃ (x : Part) (j : Job), Served 0x43 (fun u r => r.payload.length = 4 ∧ u.part r.box = some x ∧ u.journal.find (BitVec.ofNat 32 (field r.payload 0 4)) = some j ∧ j.part = r.box ∧ j.state = 1 ∧ x.run ≠ none ∧ x.hold = .free)) ∧
    (∃ x : Part, Served 0x52 (fun u r => r.payload = [] ∧ u.part r.box = some x ∧ u.inProgress r.box x = false ∧ x.run ≠ none ∧ x.hold = .free)) ∧
    (∃ x : Part, Served 0x52 (fun u r => r.payload = [] ∧ u.part r.box = some x ∧ u.inProgress r.box x = false ∧ x.hold = .rest)) ∧
    (∃ x : Part, Served 0x52 (fun u r => r.payload = [] ∧ u.part r.box = some x ∧ u.inProgress r.box x = false ∧ x.hold ≠ .rest ∧ x.run = none)) ∧
    (∃ x : Part, Served 0x53 (fun u r => r.payload = [] ∧ u.part r.box = some x ∧ u.inProgress r.box x = false ∧ x.hold = .rest)) ∧
    (Served 0x82 (fun _ r => r.payload.length = 1 ∧ field r.payload 0 1 ≤ 64 ∧ (r.box ≠ 0 → field r.payload 0 1 = r.box))) :=
  ⟨⟨{ program := some prog1 }, prog1, _, rect1, served_of ({ panelH with parts := [(1, { program := some prog1 })] } : State) 0x40 (frameOf 1 (beBytes 8 9 ++ beBytes 8 0 ++ List.replicate 8 0xFF ++ List.replicate 72 0)) _ (by decide) (by decide) (⟨by decide, by decide, by decide, by decide, by decide, rfl, by decide, by decide, by decide, rfl, by decide, by decide, by decide, by decide, by decide⟩)⟩,
    served_of panelH 0x40 (frameOf 1 ([1]) 0x20) _ (by decide) (by decide) (by decide),
    ⟨{ run := some { id := 1 } }, job3, served_of ({ panelH with journal := { jobs := [job1, job3] } } : State) 0x43 (frameOf 1 (beBytes 4 3)) _ (by decide) (by decide) (by decide)⟩,
    ⟨{ run := some { id := 1 } }, job1, served_of panelH 0x43 (frameOf 1 (beBytes 4 1)) _ (by decide) (by decide) (by decide)⟩,
    ⟨{ run := some { id := 1 } }, served_of panelH 0x52 (frameOf 1 ([])) _ (by decide) (by decide) (by decide)⟩,
    ⟨{ hold := .rest }, served_of ({ panelH with parts := [(1, { hold := .rest })] } : State) 0x52 (frameOf 1 ([])) _ (by decide) (by decide) (by decide)⟩,
    ⟨{}, served_of ({ panelH with parts := [(1, {})] } : State) 0x52 (frameOf 1 ([])) _ (by decide) (by decide) (by decide)⟩,
    ⟨{ hold := .rest }, served_of ({ panelH with parts := [(1, { hold := .rest })] } : State) 0x53 (frameOf 1 ([])) _ (by decide) (by decide) (by decide)⟩,
    served_of panelH 0x82 (frameOf 0 ([64])) _ (by decide) (by decide) (by decide)⟩

theorem served_CheckpointsComplete :
    (∃ x : Part, Served 0x50 (fun u r => r.payload.length = 2 ∧ field r.payload 0 1 = 0 ∧ field r.payload 1 1 ≤ 1 ∧ u.part r.box = some x ∧ x.sealed_ = none ∧ u.inProgress r.box x = false ∧ x.run ≠ none ∧ x.hold = .free)) ∧
    (∃ x : Part, Served 0x50 (fun u r => r.payload.length = 2 ∧ field r.payload 0 1 = 0 ∧ field r.payload 1 1 ≤ 1 ∧ u.part r.box = some x ∧ x.sealed_ = none ∧ u.inProgress r.box x = false ∧ (x.run = none ∨ x.hold = .rest) ∧ x.image = none)) ∧
    (∃ x : Part, Served 0x50 (fun u r => r.payload.length = 2 ∧ field r.payload 0 1 = 1 ∧ field r.payload 1 1 ≤ 1 ∧ u.part r.box = some x ∧ x.sealed_ = none ∧ u.inProgress r.box x = false ∧ x.portable = true ∧ x.run ≠ none ∧ x.hold = .free)) :=
  ⟨⟨{ run := some { id := 1 } }, served_of panelH 0x50 (frameOf 1 ([0, 1])) _ (by decide) (by decide) (by decide)⟩,
    ⟨{}, served_of ({ panelH with parts := [(1, {})] } : State) 0x50 (frameOf 1 ([0, 0])) _ (by decide) (by decide) (by decide)⟩,
    ⟨{ program := some { prog1 with flags := 1 }, run := some { id := 1 } }, served_of ({ panelH with parts := [(1, { program := some { prog1 with flags := 1 }, run := some { id := 1 } })] } : State) 0x50 (frameOf 1 ([1, 1])) _ (by decide) (by decide) (by decide)⟩⟩

theorem served_ErrorRequestsComplete :
    (∃ (rs : List ErrRec) (next : BitVec 32) (u' v : State), Served 0x62 (fun u r => r.payload.length = 16 ∧ field r.payload 0 1 = 0 ∧ field r.payload 1 1 < 4 ∧ 1 ≤ field r.payload 2 2 ∧ field r.payload 2 2 ≤ 120 ∧ field r.payload 13 1 = 0 ∧ (r.box ≠ 0 → field r.payload 1 1 = 0) ∧ rs = u.err.wanted r.box (BitVec.ofNat 32 (field r.payload 4 4)) (field r.payload 2 2) ∧ next = (rs.getLast?.map fun x => x.seq + 1).getD u.err.nextSeq ∧ u' = u.reply r .ok (beBytes 4 next.toNat ++ beBytes 8 u.err.spillway.toNat ++ beBytes 2 rs.length ++ List.replicate 6 0 ++ rs.flatMap ErrRec.bytes) ∧ v = (if bit (field r.payload 1 1) 1 = true then { u' with err := { u'.err with spillDetail := 0, fullEpisodes := 0, resetDiscard := false } } else u'))) ∧
    (∃ (det : Nat) (l : Loc), Served 0x62 (fun u r => r.payload.length = 16 ∧ field r.payload 0 1 = 1 ∧ field r.payload 1 1 < 4 ∧ field r.payload 2 2 = 0 ∧ field r.payload 13 1 = 0 ∧ (r.box ≠ 0 → field r.payload 1 1 = 0) ∧ det = field r.payload 8 2 ∧ l = locField r.payload 10 14 ∧ detKnown det = true ∧ u.locOk det l = true)) ∧
    (∃ (det : Nat) (l : Loc) (locs : List Loc) (j : Injection), Served 0x63 (fun u r => r.payload.length = 24 ∧ field r.payload 2 1 = 0 ∧ field r.payload 3 1 < 8 ∧ field r.payload 7 1 = 0 ∧ field r.payload 10 2 = 0 ∧ field r.payload 20 4 = 0 ∧ field r.payload 12 4 = 0 ∧ field r.payload 16 4 = 0 ∧ det = field r.payload 0 2 ∧ l = locField r.payload 4 8 ∧ bit (field r.payload 3 1) 1 = true ∧ detKnown det = true ∧ u.fuses.hasDie l.die = true ∧ (detOnTile det = true → l.die < 24) ∧ u.err.injections.length < 16 ∧ u.lifeCycle ≠ 4 ∧ (detResets det = true → bit (field r.payload 3 1) 2 = true) ∧ locs = u.dieWide det l ∧ locs ≠ [] ∧ j = { id := u.err.nextInj, det := det, locs := locs, noRepair := bit (field r.payload 3 1) 0, left := locs.map fun _ => 1, period := 0 })) ∧
    (∃ j : Injection, Served 0x63 (fun u r => r.payload.length = 24 ∧ field r.payload 2 1 = 2 ∧ field r.payload 3 1 < 8 ∧ field r.payload 7 1 = 0 ∧ field r.payload 10 2 = 0 ∧ field r.payload 20 4 = 0 ∧ u.err.injections.find? (fun q => decide (q.id.toNat = field r.payload 12 4)) = some j)) ∧
    (Served 0x71 (fun u r => r.payload.length = 4 ∧ 1 ≤ field r.payload 0 1 ∧ field r.payload 0 1 ≤ 16 ∧ u.scopeOk (field r.payload 1 1) (field r.payload 2 2) = true)) :=
  ⟨⟨_, _, _, _, served_of panelH 0x62 (frameOf 0 ([0, 3] ++ beBytes 2 120 ++ List.replicate 12 0)) _ (by decide) (by decide) (⟨by decide, by decide, by decide, by decide, by decide, by decide, by decide, rfl, rfl, rfl, rfl⟩)⟩,
    ⟨0x0E03, { die := 5 }, served_of panelH 0x62 (frameOf 1 ([1, 0, 0, 0, 0, 0, 0, 0] ++ beBytes 2 0x0E03 ++ [5, 0xFF, 0xFF, 0] ++ beBytes 2 0xFFFF)) _ (by decide) (by decide) (by decide)⟩,
    ⟨_, _, _, _, served_of panelH 0x63 (frameOf 0 (beBytes 2 0x0E03 ++ [0, 2, 5, 0xFF, 0xFF, 0] ++ beBytes 2 0xFFFF ++ [0, 0] ++ beBytes 4 0 ++ beBytes 4 0 ++ [0, 0, 0, 0])) _ (by decide) (by decide) (⟨by decide, by decide, by decide, by decide, by decide, by decide, by decide, by decide, rfl, rfl, by decide, by decide, by decide, by decide, by decide, by decide, by decide, rfl, by decide, rfl⟩)⟩,
    ⟨inj1, served_of ({ panelH with err := { injections := [inj1] } } : State) 0x63 (frameOf 0 (beBytes 2 0x0E03 ++ [2, 0, 5, 0xFF, 0xFF, 0] ++ beBytes 2 0xFFFF ++ [0, 0] ++ beBytes 4 1 ++ beBytes 4 0 ++ [0, 0, 0, 0])) _ (by decide) (by decide) (by decide)⟩,
    served_of panelH 0x71 (frameOf 0 ([16, 0, 0, 0])) _ (by decide) (by decide) (by decide)⟩

theorem served_CalibrationsComplete :
    (∃ kind id : Nat, Served 0x72 (fun u r => r.payload.length = 16 ∧ field r.payload 0 1 = 1 ∧ field r.payload 1 1 = kind ∧ field r.payload 2 2 = id ∧ (kind = 0 ∨ kind = 2) ∧ u.scopeOk kind id = true ∧ zeroBytes r.payload 4 12 = true)) ∧
    (∃ v : State, Served 0x72 (fun u r => r.payload.length = 16 ∧ field r.payload 0 1 = 2 ∧ field r.payload 1 1 = 0 ∧ field r.payload 2 2 = 0 ∧ zeroBytes r.payload 4 12 = true ∧ v = u.scanAll ∧ v.bankWorn v.nextBank = false ∧ v.planDue = true)) ∧
    (Served 0x72 (fun u r => r.payload.length = 16 ∧ field r.payload 0 1 = 3 ∧ (field r.payload 1 1 = 0 ∨ field r.payload 1 1 = 2) ∧ u.scopeOk (field r.payload 1 1) (field r.payload 2 2) = true ∧ 30 ≤ field r.payload 4 2 ∧ field r.payload 4 2 ≤ 145 ∧ zeroBytes r.payload 6 10 = true)) ∧
    (Served 0x72 (fun u r => r.payload.length = 16 ∧ field r.payload 0 1 = 4 ∧ (field r.payload 1 1 = 0 ∨ field r.payload 1 1 = 2) ∧ u.scopeOk (field r.payload 1 1) (field r.payload 2 2) = true ∧ 70 ≤ field r.payload 4 1 ∧ field r.payload 4 1 ≤ 100 ∧ zeroBytes r.payload 5 11 = true)) ∧
    (Served 0x72 (fun u r => r.payload.length = 16 ∧ field r.payload 0 1 = 5 ∧ (field r.payload 1 1 = 0 ∨ field r.payload 1 1 = 2) ∧ u.scopeOk (field r.payload 1 1) (field r.payload 2 2) = true ∧ (field r.payload 4 4 = 0 ∨ 100 ≤ field r.payload 4 4) ∧ field r.payload 4 4 ≤ 3600000 ∧ 100 ≤ field r.payload 8 2 ∧ zeroBytes r.payload 10 6 = true)) ∧
    (Served 0x72 (fun _ r => r.payload.length = 16 ∧ field r.payload 0 1 = 6 ∧ field r.payload 1 1 = 2 ∧ field r.payload 2 2 < 24 ∧ zeroBytes r.payload 4 12 = true)) ∧
    (Served 0x72 (fun u r => r.payload.length = 37 ∧ field r.payload 0 1 = 0x80 ∧ field r.payload 1 1 = 0xFF ∧ field r.payload 2 3 = 0 ∧ field r.payload 7 2 = 0 ∧ field r.payload 27 2 = 0 ∧ u.portOpen none = false ∧ (∀ n ∈ [32, 33, 34], (u.preg n).worn = false))) ∧
    (∃ id n : Nat, Served 0x72 (fun u r => r.payload.length = 37 ∧ field r.payload 0 1 = 0x80 ∧ field r.payload 1 1 = id ∧ id ≠ 0xFF ∧ field r.payload 2 3 = 0 ∧ field r.payload 7 2 = 0 ∧ field r.payload 27 2 = 0 ∧ u.fuses.hasPort id = true ∧ tribCfgOk (field r.payload 29 8) = true ∧ u.portOpen (some id) = false ∧ n = 40 + 2 * portIx id ∧ (u.preg n).worn = false ∧ (u.preg (n + 1)).worn = false)) :=
  ⟨⟨2, 23, served_of panelH 0x72 (frameOf 0 ([1, 2] ++ beBytes 2 23 ++ List.replicate 12 0)) _ (by decide) (by decide) (by decide)⟩,
    ⟨_, served_of panelH 0x72 (frameOf 0 ([2, 0, 0, 0] ++ List.replicate 12 0)) _ (by decide) (by decide) (⟨by decide, by decide, by decide, by decide, by decide, rfl, by decide +kernel, by decide +kernel⟩)⟩,
    served_of panelH 0x72 (frameOf 0 ([3, 0, 0, 0] ++ beBytes 2 145 ++ List.replicate 10 0)) _ (by decide) (by decide) (by decide),
    served_of panelH 0x72 (frameOf 0 ([4, 0, 0, 0, 100] ++ List.replicate 11 0)) _ (by decide) (by decide) (by decide),
    served_of panelH 0x72 (frameOf 0 ([5, 0, 0, 0] ++ beBytes 4 3600000 ++ beBytes 2 100 ++ List.replicate 6 0)) _ (by decide) (by decide) (by decide),
    served_of panelH 0x72 (frameOf 0 ([6, 2] ++ beBytes 2 23 ++ List.replicate 12 0)) _ (by decide) (by decide) (by decide),
    served_of panelH 0x72 (frameOf 0 ([0x80, 0xFF, 0, 0, 0] ++ beBytes 2 1 ++ List.replicate 30 0)) _ (by decide) (by decide) (by decide),
    ⟨0x17, _, served_of panelH 0x72 (frameOf 0 ([0x80, 0x17, 0, 0, 0] ++ beBytes 2 1 ++ List.replicate 22 0 ++ beBytes 8 0xC0E2000060320F00)) _ (by decide) (by decide) (⟨by decide, by decide, by decide, by decide, by decide, by decide, by decide, by decide, by decide, by decide, rfl, by decide, by decide⟩)⟩⟩

theorem served_EntropyCompletes :
    (∃ d : List Byte × EntropyState, Served 0x70 (fun u r => r.payload.length = 8 ∧ 1 ≤ field r.payload 0 2 ∧ field r.payload 0 2 ≤ 4096 ∧ field r.payload 2 1 ≤ 1 ∧ zeroBytes r.payload 3 5 = true ∧ (field r.payload 2 1 = 1 → field r.payload 0 2 ≤ 256) ∧ u.ent.state = .run ∧ d = (if field r.payload 2 1 = 1 then EntropyState.blocks ((field r.payload 0 2 + 31) / 32) u.ent else u.ent.output (field r.payload 0 2)))) ∧
    (Served 0x70 (fun u r => r.payload.length = 8 ∧ 1 ≤ field r.payload 0 2 ∧ field r.payload 0 2 ≤ 4096 ∧ field r.payload 2 1 = 0 ∧ zeroBytes r.payload 3 5 = true ∧ u.ent.state ≠ .run ∧ u.ent.state ≠ .failed)) :=
  ⟨⟨_, served_of ({ panelH with ent := { state := .run } } : State) 0x70 (frameOf 1 (beBytes 2 4096 ++ List.replicate 6 0)) _ (by decide) (by decide) (⟨by decide, by decide, by decide, by decide, by decide, by decide, by decide, rfl⟩)⟩,
    served_of panelH 0x70 (frameOf 1 (beBytes 2 1 ++ List.replicate 6 0)) _ (by decide) (by decide) (by decide)⟩

/-! ## Sessions -/

theorem witness_RequestsKeepTheRest : Served 0x03 (fun _ _ => True) :=
  served_of panelH 0x03 (frameOf 1 []) _ (by decide) (by decide) trivial

theorem witness_SessionFramesComplete : ∃ (s : State) (f : VFrame), s.Calm ∧ s.Serves 0x04 f :=
  ⟨panelH, sign 0x04 key1 (frameOf 1 []), ⟨rfl, rfl, rfl⟩, (serves_sign panelH 0x04 (frameOf 1 []) key1 (by decide) (by decide)).1⟩

/-- A HELLO under the null key, still without its trailer. -/
def hello0 : VFrame := { flags := 0x10, payload := List.replicate 16 0, payloadLen := 16, length := 64 }

/-- panel1 with its host port up. -/
def panelUp : State := { panel1 with host := { ports := [(0, { up := true })] } }

theorem sign_trailer (op : Nat) (key : List Byte) (f : VFrame) :
    (sign op key f).trailer = vTrailer key ((sign op key f).header op) (sign op key f).payload := rfl

theorem hello_front : (panelUp.vorlaFront 0x01 (sign 0x01 nullKey hello0)).2 = true := by
  have ht : panelUp.trailerOk 0x01 (sign 0x01 nullKey hello0) = true := by
    have e : (sign 0x01 nullKey hello0).isNull = true := by decide
    have k : panelUp.nullKeyOk 0x01 (sign 0x01 nullKey hello0) = true := rfl
    have v : (sign 0x01 nullKey hello0).trailer = vTrailer nullKey ((sign 0x01 nullKey hello0).header 0x01) (sign 0x01 nullKey hello0).payload := sign_trailer _ _ _
    simp only [State.trailerOk, e, k, if_true, Bool.true_and]
    exact decide_eq_true v
  have a1 : (panelUp.host.ports.getD (sign 0x01 nullKey hello0).port {}).up = true := by decide
  have a2 : (panelUp.host.ports.getD (sign 0x01 nullKey hello0).port {}).disabled = false := by decide
  have a3 : (sign 0x01 nullKey hello0).accepted 0x01 = true := by decide
  have a4 : (sign 0x01 nullKey hello0).magic = 0x5A4D := rfl
  have a5 : panelUp.mailboxExists (sign 0x01 nullKey hello0).mailbox.toNat = true := by decide
  have a6 : panelUp.power.inReset = false := rfl
  have a7 : panelUp.firm.phase = .idle := rfl
  have a8 : panelUp.firm.mode = .run := rfl
  have a9 : (sign 0x01 nullKey hello0).seq = 0 := rfl
  unfold State.vorlaFront
  simp [a1, a2, a3, a4, a5, a6, a7, a8, a9, ht]

theorem witness_HelloOpensSession :
    panelUp.Calm ∧ (panelUp.vorlaFront 0x01 (sign 0x01 nullKey hello0)).2 = true ∧ (panelUp.box 0).live = false ∧
      hello0.flags &&& 0xAF = 0 ∧ hello0.reserved5 = 0 ∧ hello0.reserved26 = 0 ∧ hello0.epoch = 0 ∧ hello0.payload.length = 16 ∧
      (∀ b ∈ hello0.payload.drop 8, b = 0) ∧ BitVec.ofNat 64 (beNat (hello0.payload.take 8)) &&& ~~~definedFeatures = 0 :=
  ⟨⟨rfl, rfl, rfl⟩, hello_front, by decide, by decide, rfl, rfl, rfl, by decide, by decide, by decide⟩

/-- A frame that waits for its acknowledgement on mailbox 1. -/
def vsent9 : VSent := { wire := ⟨0, 0, 1, 0x41, 0, 9, 9, 0x77, 3, [], []⟩ }

theorem witness_SessionTimersComplete :
    (((boxH { box1 with unacked := [vsent9] }).box 1).unacked.find? (fun v => decide (v.wire.seq = 9)) = some vsent9) ∧
    ((boxH { box1 with ackDue := true }).Calm ∧ ((boxH { box1 with ackDue := true }).box 1).live = true ∧
      ((boxH { box1 with ackDue := true }).box 1).ackDue = true) ∧
    (panelH.Calm ∧ (panelH.box 1).live = true) ∧ (panelH.Calm ∧ panelH.power.auxUp = true) ∧
    ((panelH.host.ports.getD 1 {}).disabled = false ∧ panelH.power.inReset = false ∧
      (((panelH.host.ports.getD 1 {}).up && !true) || false) = false ∧ (((panelH.host.ports.getD 1 {}).up && !false) || false) = true) :=
  ⟨by decide, ⟨⟨rfl, rfl, rfl⟩, by decide, by decide⟩, ⟨⟨rfl, rfl, rfl⟩, by decide⟩, ⟨⟨rfl, rfl, rfl⟩, rfl⟩, by decide⟩

theorem witness_BadTrailerRefused :
    (panelH.host.ports.getD 0 {}).up = true ∧ (panelH.host.ports.getD 0 {}).disabled = false ∧ panelH.power.inReset = false ∧
      panelH.firm.phase = .idle ∧ panelH.firm.mode = .run ∧ (frameOf 1 []).accepted 0x03 = true ∧ (frameOf 1 []).magic = 0x5A4D ∧
      (frameOf 1 []).version.toNat / 16 = 1 ∧ panelH.mailboxExists 1 = true ∧ panelH.trailerOk 0x03 (frameOf 1 []) = false := by
  refine ⟨by decide, by decide, by decide, by decide, by decide, by decide, by decide, by decide, by decide, ?_⟩
  have e : (frameOf 1 []).isNull = false := by decide
  have k : (panelH.box (frameOf 1 []).mailbox.toNat).kMac = some key1 := by decide
  have t : (frameOf 1 []).trailer = [] := rfl
  have n : [] ≠ vTrailer key1 ((frameOf 1 []).header 0x03) (frameOf 1 []).payload := by
    intro h
    have l := congrArg List.length h
    rw [vTrailer, kmac256_length] at l
    simp at l
  simp only [State.trailerOk, e, k, Bool.false_eq_true, if_false, t]
  exact decide_eq_false n

/-! ## Firmware, trust -/

/-- panel1 with its firmware given. -/
def firmP (f : FirmState) : State := { panel1 with firm := f }

theorem witness_LoadsComplete :
    (load0.target = 0 ∧ (firmP { mode := .run }).firm.mode = .run ∧ (firmP { mode := .run }).firm.phase = .idle ∧ [1].length ≤ 16777216) ∧
    (({ panel1 with parts := [(1, pagePart pte5)] } : State).part 1 = some (pagePart pte5) ∧
      (pagePart pte5).rangeMapped 0x1FFFF8 [1, 2, 3, 4, 5, 6, 7, 8].length = true) := by decide

theorem witness_ActivationCompletes :
    ((firmP { mode := .run, phase := .waiting }).Calm ∧ (firmP { mode := .run, phase := .waiting }).firm.phase = .waiting) ∧
    (∃ s : State, s.firm.staged = some image1 ∧ s.firm.phase = .waiting ∧ s.mayCommit = true ∧ (s.preg 24).worn = false) ∧
    (∃ s : State, s.firm.staged = some image1 ∧ s.firm.image = some {} ∧ s.firm.phase = .committed) :=
  ⟨⟨⟨rfl, rfl, rfl⟩, rfl⟩,
    ⟨{ panel1 with geom := [], parts := [], firm := { mode := .run, phase := .waiting, staged := some image1 } }, by decide⟩,
    ⟨firmP { mode := .run, phase := .committed, staged := some image1, image := some {} }, by decide⟩⟩

/-- panel1 with persistent register n worn. -/
def worn (n : Nat) : State := firmP { mode := .run, pregs := [(n, { value := 5, wcount := 100000 })] }

theorem witness_BringUpCompletes :
    (∃ s : State, s.firm.image = some image1 ∧ s.firm.starting = true ∧ s.firm.mode = .recovery ∧ s.firm.stewards ≠ []) ∧
    (∃ s : State, s.firm.image = some image1 ∧ s.firm.starting = true ∧ s.firm.mode ≠ .recovery) ∧
    (panel1.firm.mode = .run) ∧ ((firmP { mode := .run, stewards := [(3, 1)] }).firm.stewards.has 3 = true) ∧
    (∃ s : State, s.Calm ∧ s.firm.image = some image1 ∧ s.firm.stewardDown.contains 3 = true ∧ (s.partsOnDie 3).all s.atBoundary = true) ∧
    (∃ s : State, s.Calm ∧ 65536 * (s.firm.mirrored + 1) ≤ s.firm.plateNext) ∧
    (∃ s : State, s.planDue = true) ∧ (panel1.preg 511).worn = false ∧ ((worn 0).preg 0).worn = true ∧
    (let p := (firmP { mode := .run, pregs := [(511, { value := 5, wcount := 1, bad1 := true })] }).preg 511; (p.bad0 ^^ p.bad1) = true) :=
  ⟨⟨firmP { mode := .recovery, image := some image1, starting := true, stewards := [(0, 1)] }, by decide⟩,
    ⟨firmP { mode := .boot, image := some image1, starting := true }, by decide⟩, by decide, by decide,
    ⟨firmP { mode := .run, image := some image1, stewardDown := [3] }, ⟨rfl, rfl, rfl⟩, by decide⟩,
    ⟨firmP { mode := .run, plateNext := 65536 }, ⟨rfl, rfl, rfl⟩, by decide⟩,
    ⟨{ panel1 with power := { inReset := false, dies := [(0, { slow := 12000 })] } }, by decide⟩, by decide, by decide, by decide⟩

theorem witness_KeyExchangesComplete : (boxH { box1 with offer := some offer1 }).Calm := ⟨rfl, rfl, rfl⟩

/-- A panel without partitions whose life cycle is n. -/
def life (n : Nat) : State :=
  { panel1 with geom := [], parts := [], ent := { state := .run }, firm := { mode := .run, pregs := [(0, { value := BitVec.ofNat 64 n, wcount := 1 })] } }

theorem witness_AttestationCompletes :
    ((life 0).lifeCycle = 0 ∧ (life 1).lifeCycle = 1 ∧ (life 2).lifeCycle = 2 ∧ (life 3).lifeCycle = 3 ∧ (life 4).lifeCycle = 4) ∧
    (∀ n : Nat, (life n).geom = [] ∧ (life n).ent.state = .run ∧ (life n).Calm) :=
  ⟨by decide, fun _ => ⟨rfl, rfl, rfl, rfl, rfl⟩⟩

/-- panel1 that rotates the key of partition 1. -/
def rotating (todo : List Nat) : State := { panel1 with trust := { rotations := [(1, ⟨7, 0, todo, 0⟩)] } }

theorem witness_KeyRotationCompletes :
    ((rotating [0, 3]).trust.rotations.find 1 = some ⟨7, 0, [0, 3], 0⟩ ∧ [0, 3] ≠ []) ∧
    ((rotating []).trust.rotations.find 1 = some ⟨7, 0, [], 0⟩ ∧ (rotating []).flights 1 0 = 0) := by decide

/-! ## Partitions, jobs, checkpoints -/

/-- A panel without partitions whose source runs, and a session on the admin mailbox. -/
def panelE : State := { panelH with geom := [], parts := [], journal := {}, ent := { state := .run } }

/-- PART_CREATE of partition 2 at (4, 0), four by four: one page, one page of reserve, one unit of port 0. -/
def create2 : List Byte :=
  [2, 0, 4, 0, 4, 4, 1, 0] ++ beBytes 8 (2 ^ 22) ++ beBytes 4 1 ++ beBytes 4 1 ++ [0, 1]

theorem witness_PartCreateCompletes : ∃ (s : State) (f : VFrame), s.Calm ∧ s.Serves 0x30 f ∧ s.geom.length < 64 ∧
    (CreateReq.of f.payload).wellFormed f.payload s.fuses.rows = true ∧ (s.taken 0x30 f).createRefused (CreateReq.of f.payload) = false ∧
    (s.taken 0x30 f).ent.state = .run ∧
    (State.takeFrames (bit (CreateReq.of f.payload).flags 0) (CreateReq.of f.payload).rect.part 2 0 (s.taken 0x30 f)).any (fun r => (State.takeFrames false 0
      (tableFrames (CreateReq.of f.payload).vaLimit) 0 r.2).isSome) = true := by
  obtain ⟨a, b, c⟩ := serves_sign panelE 0x30 (frameOf 0 create2) key1 (by decide) (by decide)
  refine ⟨panelE, sign 0x30 key1 (frameOf 0 create2), ⟨rfl, rfl, rfl⟩, a, by decide, ?_⟩
  rw [b]
  exact ⟨show (CreateReq.of create2).wellFormed create2 72 = true by decide, show (quiet panelE (frameOf 0 create2)).createRefused (CreateReq.of create2) = false by decide,
    by decide, show (State.takeFrames (bit (CreateReq.of create2).flags 0) (CreateReq.of create2).rect.part 2 0 (quiet panelE (frameOf 0 create2))).any (fun r =>
      (State.takeFrames false 0 (tableFrames (CreateReq.of create2).vaLimit) 0 r.2).isSome) = true by decide⟩

theorem witness_PartitionRequestsComplete :
    Served 0x31 (fun u r => r.payload.length = 1 ∧ field r.payload 0 1 = 1 ∧ u.parts.has 1 = true) ∧ panel1.part 1 ≠ none ∧ 0 ∈ panel1.tilesOf 1 :=
  ⟨served_of panelH 0x31 (frameOf 0 [1]) _ (by decide) (by decide) (by decide), by decide, by decide⟩

/-- Partition 1 given, its job in a state of the journal. -/
def jobP (x : Part) (st : Nat) : State := { panel1 with parts := [(1, x)], journal := { jobs := [{ job1 with state := st }] } }

/-- Sixteen tiles whose streams have ended. -/
def doneP : State :=
  { jobP { run := some { id := 1, open_ := true } } 1 with
    tiles := ((List.range 4).flatMap fun y => (List.range 4).map fun x => (48 * y + x, ({ ended := true } : TileState))) }

theorem witness_JobsComplete :
    ((jobP { program := some prog1 } 0).part 1 = some { program := some prog1 } ∧ (jobP { program := some prog1 } 0).mayStart 1 { program := some prog1 } = true ∧
      (jobP { program := some prog1 } 0).nextJob 1 { program := some prog1 } = some ({ job1 with state := 0 }, { id := 1 }) ∧
      fitBytes 32 prog1.digest = fitBytes 32 ({ job1 with state := 0 } : Job).image) ∧
    (doneP.part 1 = some { run := some { id := 1, open_ := true } } ∧ ({ run := some { id := 1, open_ := true } } : Part).dispatching = true ∧
      ∀ t ∈ doneP.tilesOf 1, (doneP.tile t).finished = true) ∧
    ((jobP { hold := .stopping 7 0 false } 0).part 1 = some { hold := .stopping 7 0 false } ∧
      (jobP { hold := .stopping 7 0 false } 0).restReady 1 0 = true) := by decide

/-- A whole stream without sections or pages whose inboxes are empty, before its tag. -/
def stream0 : List Byte :=
  beBytes 4 0x5A4D4556 ++ [0, 0, 0, 0] ++ List.replicate 8 0 ++ beBytes 8 136 ++ List.replicate 8 0 ++
    leBytes 4 0x5A4D4358 ++ leBytes 2 1 ++ [1, 0] ++ List.replicate 128 0

theorem witness_CheckpointsComplete :
    panelH.part 1 ≠ none ∧ field (0 :: (stream0 ++ List.replicate 16 0)) 0 1 = bnat false ∧
    (readStream (stream0 ++ List.replicate 16 0)).isSome = true ∧
    (readStream (stream0 ++ List.replicate 16 0)).all (fun v => panelH.sectionsOk 1 v) = true := by decide +kernel

/-- A frame with a payload that has the length of another is as good as it. -/
theorem passes_payload (s : State) (op : Nat) (f : VFrame) (key pl : List Byte) (h : pl.length = f.payload.length)
    (hm : opcodeMailbox op f.mailbox.toNat pl = opcodeMailbox op f.mailbox.toNat f.payload) :
    passes s op { f with payload := pl } key = passes s op f key := by
  have a : ({ f with payload := pl } : VFrame).accepted op = f.accepted op := by simp [VFrame.accepted, h]
  have c : ∀ u : State, u.vorlaCheck op { f with payload := pl } = u.vorlaCheck op f := by
    intro u
    unfold State.vorlaCheck
    simp only [hm]
    rfl
  unfold passes
  simp only [a, c]
  rfl

theorem quiet_payload (s : State) (f : VFrame) (pl : List Byte) : quiet s { f with payload := pl } = quiet s f := rfl

/-- CKPT_RESTORE of an empty stream, sealed under K_DATA. -/
def restore0 : VFrame := frameOf 1 (List.replicate 17 0)

def restoreWire : List Byte := [0] ++ gcmSeal key1 (vNonce 1 0 9) (restore0.header 0x51) []

theorem restoreWire_length : restoreWire.length = 17 := by
  simp [restoreWire, gcmSeal_length key1 _ _ _ (by decide : key1.length = 32)]

theorem restoreData_first (s : State) (r : Req) (key d ct : List Byte) (hk : (s.box r.box).kData = some key) (hp : r.payload = [0] ++ ct)
    (hg : gcmOpen key (vNonce r.box 0 r.seq) r.header ct = some d) : s.restoreData r true = some ([0] ++ d) := by
  simp [State.restoreData, State.openData, hk, hp, hg]

theorem header_payload (f : VFrame) (op : Nat) (pl : List Byte) : ({ f with payload := pl } : VFrame).header op = f.header op := rfl

theorem request_payload : (VFrame.request { restore0 with payload := restoreWire } 0x51).payload =
    [0] ++ gcmSeal key1 (vNonce 1 0 9) (restore0.header 0x51) [] := by
  simp only [VFrame.request, restoreWire]

theorem request_header : (VFrame.request { restore0 with payload := restoreWire } 0x51).header = restore0.header 0x51 := by
  simp only [VFrame.request, header_payload]

theorem served_ckptRestore : ∃ (x : Part) (d : List Byte), Served 0x51 (fun u r => u.part r.box = some x ∧ (u.box r.box).partials = [] ∧
    u.inProgress r.box x = false ∧ (x.run = none ∨ x.hold = .rest) ∧ u.restoreData r true = some d) := by
  refine ⟨{}, [0], served_of { panelH with parts := [(1, {})] } 0x51 { restore0 with payload := restoreWire } _ (by decide) ?_ ?_⟩
  · rw [passes_payload _ 0x51 restore0 key1 restoreWire (by rw [restoreWire_length]; rfl) (by simp [opcodeMailbox])]
    decide
  · rw [quiet_payload]
    refine ⟨by decide, by decide, by decide, by decide, ?_⟩
    exact restoreData_first _ _ key1 [] _ (by decide) request_payload (by
      rw [request_header]; exact gcmOpen_gcmSeal key1 _ _ [] (by decide))

/-- A partition without weight mode, its program, its page. -/
def bindPart : Part := { program := some { prog1 with family := List.replicate 32 0 }, vaLimit := 4194304, ptes := [(0, pte5)] }

/-- WEIGHT_BIND of 64 KiB at 0 to 65536 without a wrapped block. -/
def bindHead : List Byte := List.replicate 16 0 ++ beBytes 8 0 ++ beBytes 8 65536 ++ beBytes 8 65536

def bind0 : VFrame := frameOf 1 (bindHead ++ List.replicate 1680 0)

/-- A wrap for the seal key pair (empty, empty). -/
def bindBlock : List Byte := digest256 (fitBytes 1568 []) ++ List.replicate 1648 0

def bindPanel : State := { panelH with parts := [(1, bindPart)], trust := { sealKey := some ([], []) } }

theorem field_append (a b : List Byte) (off n : Nat) (h : off + n ≤ a.length) : field (a ++ b) off n = field a off n := by
  simp only [field]
  rw [List.drop_append_of_le_length (by omega), List.take_append_of_le_length (by simp; omega)]

theorem served_sealBind : ∃ (x : Part) (g : Program) (blk : List Byte) (k : List Byte × List Byte) (wk : Option (List Byte)) (src n dst : Nat),
    Served 0x23 (fun u r => u.part r.box = some x ∧ x.run = none ∧ x.program = some g ∧ src = field r.payload 16 8 ∧ n = field r.payload 24 8 ∧
      dst = field r.payload 32 8 ∧ n % 65536 = 0 ∧ blk = r.payload.drop 40 ∧
      rangesMeet src n dst (n / 65536 * 65520) = false ∧ x.rangeMapped src n = true ∧ x.rangeMapped dst (n / 65536 * 65520) = true ∧
      bit x.flags 1 = false ∧ blk.length = 1680 ∧ u.trust.sealKey = some k ∧ blk.take 32 = digest256 (fitBytes 1568 k.1) ∧
      (blk.drop 32).take 32 = g.family ∧ wk = unwrapKey (Config.kemDecaps k.2 ((blk.drop 64).take 1568)) (r.payload.take 16) g.family (blk.drop 1632)) := by
  have hb : bindBlock.length = 1680 := by
    rw [bindBlock, List.length_append, digest256_length, List.length_replicate]
  have hh : bindHead.length = 40 := by decide
  have hl : (bindHead ++ bindBlock).length = bind0.payload.length := by
    have e : bind0.payload = bindHead ++ List.replicate 1680 0 := by simp only [bind0, frameOf]
    rw [e, List.length_append, List.length_append, hb, List.length_replicate]
  have rp : (VFrame.request { bind0 with payload := bindHead ++ bindBlock } 0x23).payload = bindHead ++ bindBlock := by simp only [VFrame.request]
  refine ⟨bindPart, { prog1 with family := List.replicate 32 0 }, bindBlock, ([], []),
    unwrapKey (Config.kemDecaps [] ((bindBlock.drop 64).take 1568)) (List.replicate 16 0) (List.replicate 32 0) (bindBlock.drop 1632), 0, 65536, 65536,
    served_of bindPanel 0x23 { bind0 with payload := bindHead ++ bindBlock } _ (by decide) ?_ ?_⟩
  · rw [passes_payload _ _ _ _ _ hl (by simp [opcodeMailbox])]
    decide +kernel
  · rw [quiet_payload]
    refine ⟨by decide +kernel, rfl, rfl, ?_, ?_, ?_, by decide, ?_, by decide, by decide, by decide, by decide, hb, by decide +kernel, ?_, ?_, ?_⟩
    · rw [rp, field_append _ _ _ _ (hh ▸ by decide)]; decide
    · rw [rp, field_append _ _ _ _ (hh ▸ by decide)]; decide
    · rw [rp, field_append _ _ _ _ (hh ▸ by decide)]; decide
    · rw [rp, ← hh, List.drop_left]
    · unfold bindBlock
      rw [List.take_append_of_le_length (by simp)]
      exact List.take_of_length_le (by simp)
    · unfold bindBlock
      rw [List.drop_left' (digest256_length _), List.take_replicate]
      rfl
    · have t : (bindHead ++ bindBlock).take 16 = List.replicate 16 0 := by
        rw [List.take_append_of_le_length (hh ▸ by decide)]; decide
      rw [rp, t]

/-! ## Errors and entropy -/

theorem served_injections :
    (∃ (det n period : Nat) (l : Loc) (j : Injection), Served 0x63 (fun u r => r.payload.length = 24 ∧ field r.payload 2 1 = 0 ∧ field r.payload 3 1 < 8 ∧ field r.payload 7 1 = 0 ∧ field r.payload 10 2 = 0 ∧ field r.payload 20 4 = 0 ∧ n = field r.payload 12 4 ∧ period = field r.payload 16 4 ∧ det = field r.payload 0 2 ∧ l = locField r.payload 4 8 ∧ bit (field r.payload 3 1) 1 = false ∧ detKnown det = true ∧ u.locOk det l = true ∧ (true = true → n = 0 ∧ period = 0) ∧ (true = false → n ≠ 0 ∧ period ≠ 0) ∧ u.err.injections.length < 16 ∧ u.lifeCycle ≠ 4 ∧ (detResets det = true → bit (field r.payload 3 1) 2 = true) ∧ j = { id := u.err.nextInj, det := det, locs := [l], noRepair := bit (field r.payload 3 1) 0, left := [1], period := period })) ∧
    (∃ (det n period : Nat) (l : Loc) (j : Injection), Served 0x63 (fun u r => r.payload.length = 24 ∧ field r.payload 2 1 = 1 ∧ field r.payload 3 1 < 8 ∧ field r.payload 7 1 = 0 ∧ field r.payload 10 2 = 0 ∧ field r.payload 20 4 = 0 ∧ n = field r.payload 12 4 ∧ period = field r.payload 16 4 ∧ det = field r.payload 0 2 ∧ l = locField r.payload 4 8 ∧ bit (field r.payload 3 1) 1 = false ∧ detKnown det = true ∧ u.locOk det l = true ∧ (false = true → n = 0 ∧ period = 0) ∧ (false = false → n ≠ 0 ∧ period ≠ 0) ∧ u.err.injections.length < 16 ∧ u.lifeCycle ≠ 4 ∧ (detResets det = true → bit (field r.payload 3 1) 2 = true) ∧ j = { id := u.err.nextInj, det := det, locs := [l], noRepair := bit (field r.payload 3 1) 0, left := [n], period := period })) :=
  ⟨⟨_, _, _, _, _, served_of panelH 0x63 (frameOf 0 (beBytes 2 0x0E03 ++ [0, 0, 5, 0xFF, 0xFF, 0] ++ beBytes 2 0xFFFF ++ [0, 0] ++ beBytes 4 0 ++ beBytes 4 0 ++ [0, 0, 0, 0])) _ (by decide) (by decide) (⟨by decide, by decide, by decide, by decide, by decide, by decide, rfl, rfl, rfl, rfl, by decide, by decide, by decide, by decide, by decide, by decide, by decide, by decide, rfl⟩)⟩,
    ⟨_, _, _, _, _, served_of panelH 0x63 (frameOf 0 (beBytes 2 0x0E03 ++ [1, 0, 5, 0xFF, 0xFF, 0] ++ beBytes 2 0xFFFF ++ [0, 0] ++ beBytes 4 1 ++ beBytes 4 1 ++ [0, 0, 0, 0])) _ (by decide) (by decide) (⟨by decide, by decide, by decide, by decide, by decide, by decide, rfl, rfl, rfl, rfl, by decide, by decide, by decide, by decide, by decide, by decide, by decide, by decide, rfl⟩)⟩⟩

/-- panel1 with the state of its detectors given, its job not started. -/
def errP (e : ErrState) : State := { panel1 with parts := [(1, {})], journal := {}, err := e }

theorem witness_ErrorRequestsComplete :
    ((errP { injections := [{ inj1 with locs := [{ die := 5 }], left := [1] }] }).err.injections.find? (fun q => decide (q.id = 1)) =
        some { inj1 with locs := [{ die := 5 }], left := [1] } ∧ [({ die := 5 } : Loc)][0]? = some { die := 5 } ∧ [1].getD 0 0 ≠ 0) ∧
    ((errP { deferred := [⟨4, 3, 1, 1, [1], 0, 0⟩] }).err.deferred.find? (fun d => decide (d.id = 4)) = some ⟨4, 3, 1, 1, [1], 0, 0⟩ ∧
      [1].contains 1 = true ∧ (errP { deferred := [⟨4, 3, 1, 1, [1], 0, 0⟩] }).atBoundary 1 = true ∧
      (errP { deferred := [⟨4, 3, 1, 1, [1], 0, 0⟩] }).power.emergency = false) := by decide

/-- panel1 with its entropy source given. -/
def entP (e : EntropyState) : State := { panel1 with ent := e }

def waiter0 : Waiter := { box := 1, opcode := 0x70, tag := 5, flags := 0, seq := 1, header := [], payload := [] }

theorem witness_EntropyCompletes :
    ((entP { waiters := [waiter0] }).ent.waiters.find? (fun w => decide (w.opcode = 0x70 ∧ w.box = 1)) = some waiter0) ∧
    ((entP { state := .run }).ent.pairEn.getLsbD 15 = true) ∧ ((entP { state := .run, sentEn := -1 }).ent.sentEn.getLsbD 23 = true) ∧
    (panel1.stewardsRun = true ∧ (({ pairEn := 0x7FF } : EntropyState).stop .switching).pairs < 12) ∧
    (12 ≤ (({ pairEn := 0xFFF } : EntropyState).stop .switching).pairs) ∧
    (16 ≤ (({ sentEn := 0xFFFF } : EntropyState).stop .switching).sentinels) ∧
    ((({ sentEn := 0x7FFF } : EntropyState).stop .switching).sentinels < 16) ∧
    ((firmP { mode := .boot }).stewardsRun = false) ∧
    ((entP {}).ent.state = .startup ∧ (entP {}).repairs = [] ∧ 12 ≤ ({ pairEn := BitVec.ofNat 16 0xFFF } : EntropyState).pairs) ∧
    ((entP { state := .switching }).ent.state = .switching ∧ 16 ≤ ({ sentEn := 0xFFFF } : EntropyState).sentinels) ∧
    ((entP { state := .run }).ent.waiters = []) ∧ (entP { state := .run, waiters := [waiter0] }).ent.waiters = [waiter0] := by decide

/-- panel1 with its supplies given. -/
def powP (p : PowerState) : State := { panel1 with power := p }

theorem witness_ResetsComplete :
    (panel1.err.due = [] ∧ panel1.power.inReset = false ∧ panel1.power.trip = false) ∧
    ((powP { trip := true }).power.trip = true ∧ (powP { trip := true }).power.inReset = true ∧ (powP { trip := true }).resetReq = none ∧
      (∀ e ∈ (powP { trip := true }).power.dies, e.2.tj.toNat ≤ 90) ∧ ({ powP { trip := true } with geom := [] } : State).geom = []) := by decide

theorem witness_SuppliesComplete :
    (State.reset.err.due = [] ∧ State.reset.resetReq = none ∧ State.reset.power.inReset = true ∧ State.reset.power.trip = false ∧
      State.reset.epochRegister = some 17 ∧ (State.reset.preg 17).wcount.toNat < 99999 ∧ State.reset.geom = []) ∧
    (panel1.Calm ∧ panel1.firm.phase ≠ .waiting) ∧ ((powP { inReset := false, dip := true }).Calm) ∧
    ((powP { inReset := false, hold := true }).power.hold = true ∧ (powP { inReset := false, hold := true }).power.dip = false) ∧
    ((powP { inReset := false, blade := true }).power.blade = true) :=
  ⟨by decide, ⟨⟨rfl, rfl, rfl⟩, by decide⟩, ⟨rfl, rfl, rfl⟩, by decide, rfl⟩

theorem witness_LimitersComplete :
    (panel1.power.inReset = false ∧ panel1.power.hotDies.contains 0x40 = false ∧ panel1.Calm ∧ panel1.firm.mode = .run) ∧
    (((powP { inReset := false, dies := [(0, { railClamp := true })] }).diePower 0).railClamp = true) ∧
    (panel1.partsOnDie 23 = [] ∧ panel1.partsOnDie 0 = 1 :: []) :=
  ⟨⟨by decide, by decide, ⟨rfl, rfl, rfl⟩, rfl⟩, by decide, by decide, by decide⟩

/-- A die with every tile gated, and one all of whose tiles are awake. -/
def gatedP : State :=
  powP { inReset := false, gated := (List.range 13).flatMap fun k => (List.range 12).map fun c => physIx (3 * 12 + c) (5 * 13 + k) }

theorem witness_SleepCompletes :
    (panel1.tileIdle 47 77 = true ∧ panel1.power.gated.contains (physIx 47 77) = false) ∧
    ((∀ k ∈ List.range 13, ∀ c ∈ List.range 12, gatedP.power.gated.contains (physIx (23 % 4 * 12 + c) (23 / 4 * 13 + k)) = true) ∧
      gatedP.partsOnDie 23 = []) ∧
    (({ powP { inReset := false, deepAfter := 100 } with journal := {}, ent := { state := .run } } : State).mayDeepIdle = true) ∧
    ((powP { inReset := false, deepIdle := true }).power.deepIdle = true ∧ (powP { inReset := false, deepIdle := true }).power.wakers = []) ∧
    ((powP { inReset := false, deepIdle := true }).Calm ∧ panel1.Calm) :=
  ⟨by decide, by decide +kernel, by decide, by decide, ⟨rfl, rfl, rfl⟩, ⟨rfl, rfl, rfl⟩⟩

theorem witness_RegisterWritesComplete :
    panel1.Calm ∧ (panel1.fuses.hasPort 0x17 = true ∧ panel1.portOpen (some 0x17) = false ∧
      tribCfgOk ((0xC0E2000060320F00 : Word) &&& 0xFFFF0FFFE0FFFF00).toNat = true) ∧ (panel1.preg 152).wcount.toNat < 99999 ∧
    ∃ reg : RegId, (∀ t, reg ≠ .fpStatus t ∧ reg ≠ .riffleStatus t ∧ reg ≠ .seqProgress t ∧ reg ≠ .eyepiece t ∧ reg ≠ .tribCfg t ∧ reg ≠ .persistent t) ∧
      (∀ x y, reg ≠ .routerCtrl x y) ∧ reg ≠ .resetCause :=
  ⟨⟨rfl, rfl, rfl⟩, by decide, by decide, .pwrStatus, by simp, by simp, by simp⟩

/-! ## Between panels -/

def connT (peer : Nat) : Conn := { part := 1, peer := peer, peerPart := 1, ix := 0, port := 0, mpj := 7, win := 8, share := 1 }
def jobT : Job := { job1 with mpj := 7, panels := 2, panelList := [3, 5] }
def xT : Part := { run := some { id := 1 } }

/-- Panel me of the two panels 3 and 5, with a connection to the other. -/
def panelT (me peer : Nat) (x : Part) : State :=
  { panel1 with panelNo := some (BitVec.ofNat 16 me), parts := [(1, x)], journal := { jobs := [jobT], nextId := 2 },
                trib := { ports := [(0, { up := true })], conns := [connT peer] } }

/-- The next frame of that connection, without its body. -/
def frameT (me peer : Nat) (b : List Byte) : TFrame :=
  { dstPart := 1, srcPart := 1, srcPanel := BitVec.ofNat 16 peer, dstPanel := BitVec.ofNat 16 me, len := BitVec.ofNat 16 b.length }

/-- What R294 asks of a frame beside its tag. -/
def hearsOpen (s : State) (type : Nat) (f : TFrame) (k : Conn) : Bool :=
  !s.power.inReset && !s.power.deepIdle && (s.tport f.port).up && !(s.tport f.port).disabled && f.udpOk &&
    !(s.trib.lost.contains f.srcPanel.toNat) && decide (s.conn f.dstPart.toNat f.srcPanel.toNat f.connIx.toNat = some k) &&
    decide (k.port = f.port) && decide (k.peerPart = f.srcPart.toNat) && decide (f.dstPanel.toNat = s.panel) && decide (f.version = 1) &&
    decide (f.flags.toNat % 4096 = 0) && decide (f.reserved = 0) && decide (f.context.toNat < 2 ^ 24) &&
    !(tControl type && decide (f.context ≠ 0)) && decide (f.len.toNat ≤ 8192) && decide (f.keyId.toNat ≤ 1) && decide (f.connIx.toNat ≤ 15)

/-- The frame with its payload sealed under the connection's key. -/
def sealT (s : State) (type : Nat) (f : TFrame) (k : Conn) (b : List Byte) : TFrame :=
  let nonce := tNonce f.srcPanel.toNat f.srcPart.toNat f.dstPart.toNat f.seq f.xmit.toNat f.connIx.toNat
  { f with body := gcmSeal (s.keyOf k (k.rotOf f.keyId.toNat)) nonce (f.aad type) b }

theorem keyOf_length (s : State) (k : Conn) (rot : Nat) : (s.keyOf k rot).length = 32 := by
  unfold State.keyOf connKey
  exact kmac256_length _ _ _ _

theorem hears_sealT (s : State) (type : Nat) (f : TFrame) (k : Conn) (b : List Byte) (hl : f.len.toNat = b.length)
    (h : hearsOpen s type f k = true) : s.Hears type (sealT s type f k b) k b := by
  simp only [hearsOpen, Bool.and_eq_true, Bool.not_eq_true', decide_eq_true_eq] at h
  obtain ⟨⟨⟨⟨⟨⟨⟨⟨⟨⟨⟨⟨⟨⟨⟨⟨⟨h1, h2⟩, h3⟩, h4⟩, h5⟩, h6⟩, h7⟩, h8⟩, h9⟩, h10⟩, h11⟩, h12⟩, h13⟩, h14⟩, h15⟩, h16⟩, h17⟩, h18⟩ := h
  refine ⟨h1, h2, h3, h4, h5, h6, h7, h8, h9, h10, h11, ?_, gcmOpen_gcmSeal _ _ _ b (keyOf_length _ _ _)⟩
  have e : (sealT s type f k b).body.length = f.len.toNat + 16 := by
    rw [hl]; exact gcmSeal_length _ _ _ b (keyOf_length _ _ _)
  have e' : (sealT s type f k b).body.length = (sealT s type f k b).len.toNat + 16 := e
  have a1 : (sealT s type f k b).flags.toNat % 4096 = 0 := h12
  have a2 : (sealT s type f k b).reserved = 0 := h13
  have a3 : ¬ 2 ^ 24 ≤ (sealT s type f k b).context.toNat := by show ¬ 2 ^ 24 ≤ f.context.toNat; omega
  have a4 : (tControl type && decide ((sealT s type f k b).context ≠ 0)) = false := h15
  have a5 : ¬ 8192 < (sealT s type f k b).len.toNat := by show ¬ 8192 < f.len.toNat; omega
  have a6 : ¬ 1 < (sealT s type f k b).keyId.toNat := by show ¬ 1 < f.keyId.toNat; omega
  have a7 : ¬ 15 < (sealT s type f k b).connIx.toNat := by show ¬ 15 < f.connIx.toNat; omega
  unfold TFrame.reservedSet
  rw [a4, e', a1, a2, decide_eq_false a3, decide_eq_false a5, decide_eq_false a6, decide_eq_false a7]
  simp

/-- Some panel delivers some frame of a type in a case of a statement. -/
def Delivered (type : Nat) (P : State → TFrame → Conn → List Byte → Prop) : Prop :=
  ∃ (s u : State) (f : TFrame) (k q : Conn) (b : List Byte), s.Hears type f k b ∧ (f.seq - k.cum).toNat < 65536 ∧ k.above.contains f.seq = false ∧
    k.ctxFault f type = none ∧ u = s.marked k f ∧ u.conn k.part k.peer k.ix = some q ∧ P u f q b

theorem marked_sealT (s : State) (type : Nat) (f : TFrame) (k : Conn) (b : List Byte) : s.marked k (sealT s type f k b) = s.marked k f := rfl

/-- The connection after a frame is marked. -/
def afterMark (s : State) (f : TFrame) (k : Conn) : Conn := ((s.marked k f).conn k.part k.peer k.ix).getD k

theorem delivered_of (type : Nat) (s : State) (f : TFrame) (k : Conn) (b : List Byte) (P : State → TFrame → Conn → List Byte → Prop)
    (hl : f.len.toNat = b.length) (h : hearsOpen s type f k = true)
    (hw : ((s.marked k f).conn k.part k.peer k.ix).isSome = true ∧ (f.seq - k.cum).toNat < 65536 ∧ k.above.contains f.seq = false)
    (hc : k.ctxFault f type = none) (hP : P (s.marked k f) f (afterMark s f k) b)
    (hi : ∀ body, P (s.marked k f) { f with body := body } (afterMark s f k) b ↔ P (s.marked k f) f (afterMark s f k) b) : Delivered type P := by
  obtain ⟨q, hq⟩ := Option.isSome_iff_exists.mp hw.1
  have e : afterMark s f k = q := by simp [afterMark, hq]
  refine ⟨s, s.marked k f, sealT s type f k b, k, q, b, hears_sealT s type f k b hl h, hw.2.1, hw.2.2, hc, (marked_sealT s type f k b).symm, hq, ?_⟩
  rw [← e]
  exact (hi _).mpr hP

/-- A frame of one wide boundary state, not the last of its group. -/
def wideB : List Byte := List.replicate 20 0 ++ beBytes 2 1 ++ beBytes 2 0x4000 ++ List.replicate 520 0

theorem delivered_TributaryFramesComplete :
    (Delivered 1 (fun _ f q b => 17 ≤ b.length ∧ field b 0 4 ≠ 0 ∧ field b 0 4 ≤ 16777216 ∧ field b 4 4 + (b.drop 16).length ≤ field b 0 4 ∧ zeroBytes b 9 7 = true ∧ q.rx.find (ctxSerial f.context.toNat) = none)) ∧
    (∀ wide : Bool, Delivered 3 (fun _ f q b => 24 ≤ b.length ∧ wide = bit (field b 22 2) 14 ∧ bits (field b 22 2) 13 0 = 0 ∧
      (b.drop 24).length = (if wide then 520 else 8) * field b 20 2 ∧ field b 12 2 ≤ 15 ∧ (field b 20 2 ≠ 0 ∨ bit (field b 22 2) 15 = true) ∧
      q.rx.find (ctxSerial f.context.toNat) = none)) ∧
    (Delivered 4 (fun _ f q b => 24 ≤ b.length ∧ bit (field b 22 2) 14 = false ∧ bits (field b 22 2) 13 4 = 0 ∧ field b 22 2 % 16 ≤ 3 ∧
      (b.drop 24).length = 8 * field b 20 2 ∧ 1 ≤ field b 20 2 ∧ field b 20 2 ≤ 1021 ∧ q.rx.find (ctxSerial f.context.toNat) = none)) ∧
    (Delivered 4 (fun _ f q b => b.length = 24 ∧ bit (field b 22 2) 14 = true ∧ bits (field b 22 2) 13 4 = 0 ∧ field b 22 2 % 16 ≤ 3 ∧ field b 20 2 = 0 ∧
      q.rx.find (ctxSerial f.context.toNat) = none)) ∧
    (∃ (x : Part) (r : RunJob) (j : Job) (n : Nat), Delivered 5 (fun u _ q b => u.part q.part = some x ∧ u.running q.part = some (r, j) ∧ b.length = 32 ∧ field b 12 1 = 0 ∧ zeroBytes b 13 3 = true ∧ zeroBytes b 20 12 = true ∧ field b 0 8 = (u.meridian q.part).toNat ∧ field b 8 4 = j.mpj.toNat ∧ j.panelList.findIdx? (fun p => decide (p = q.peer)) = some n ∧ n ∈ treeChildren (u.position j) j.panelList.length ∧ x.released = false ∧ (∀ a ∈ x.arrives, a.1 ≠ n))) ∧
    (∃ (x : Part) (r : RunJob) (j : Job) (n : Nat), Delivered 5 (fun u _ q b => u.part q.part = some x ∧ u.running q.part = some (r, j) ∧ b.length = 32 ∧ field b 12 1 = 1 ∧ zeroBytes b 13 3 = true ∧ zeroBytes b 20 12 = true ∧ field b 0 8 = (u.meridian q.part).toNat ∧ field b 8 4 = j.mpj.toNat ∧ j.panelList.findIdx? (fun p => decide (p = q.peer)) = some n ∧ u.position j ≠ 0 ∧ n = (u.position j - 1) / 16 ∧ x.gathered = true)) ∧
    (Delivered 6 (fun _ _ _ b => b.length = 32 ∧ field b 4 1 ≤ 2 ∧ zeroBytes b 5 27 = true)) ∧
    (Delivered 6 (fun _ _ _ b => b.length = 32 ∧ field b 4 1 = 3 ∧ zeroBytes b 5 27 = true)) ∧
    (∃ (r : RunJob) (j : Job), Delivered 7 (fun u _ q b => b.length = 32 ∧ zeroBytes b 15 17 = true ∧ (∀ c ∈ u.trib.conns, c.peer = q.peer → c.openGot = true → c.peerEpoch.toNat = field b 0 4) ∧ u.running q.part = some (r, j) ∧ field b 4 4 = q.mpj.toNat ∧ field b 8 4 = (j.panelList.findIdx? fun n => decide (n = q.peer)).getD 0 ∧ field b 12 2 = q.win ∧ field b 14 1 = q.share)) :=
  ⟨delivered_of 1 (panelT 3 5 xT) (frameT 3 5 (beBytes 4 1 ++ List.replicate 12 0 ++ [9])) (connT 5) (beBytes 4 1 ++ List.replicate 12 0 ++ [9]) _ (by decide) (by decide) (by decide) (by decide) (by decide) (fun _ => Iff.rfl),
    fun wide => match wide with
      | false => delivered_of 3 (panelT 3 5 xT) (frameT 3 5 (List.replicate 22 0 ++ beBytes 2 32768)) (connT 5) (List.replicate 22 0 ++ beBytes 2 32768) _ (by decide) (by decide) (by decide) (by decide) (by decide) (fun _ => Iff.rfl)
      | true => delivered_of 3 (panelT 3 5 xT) (frameT 3 5 wideB) (connT 5) wideB _ (by decide +kernel) (by decide +kernel) (by decide +kernel) (by decide +kernel) (by decide +kernel) (fun _ => Iff.rfl),
    delivered_of 4 (panelT 3 5 xT) (frameT 3 5 (List.replicate 20 0 ++ beBytes 2 1 ++ beBytes 2 32769 ++ List.replicate 8 0)) (connT 5) (List.replicate 20 0 ++ beBytes 2 1 ++ beBytes 2 32769 ++ List.replicate 8 0) _ (by decide) (by decide) (by decide) (by decide) (by decide) (fun _ => Iff.rfl),
    delivered_of 4 (panelT 3 5 xT) (frameT 3 5 (List.replicate 22 0 ++ beBytes 2 0x4000)) (connT 5) (List.replicate 22 0 ++ beBytes 2 0x4000) _ (by decide) (by decide) (by decide) (by decide) (by decide) (fun _ => Iff.rfl),
    ⟨xT, { id := 1 }, jobT, 1, delivered_of 5 (panelT 3 5 xT) (frameT 3 5 (List.replicate 8 0 ++ beBytes 4 7 ++ List.replicate 20 0)) (connT 5) (List.replicate 8 0 ++ beBytes 4 7 ++ List.replicate 20 0) _ (by decide) (by decide) (by decide) (by decide) (by decide) (fun _ => Iff.rfl)⟩,
    ⟨{ xT with gathered := true }, { id := 1 }, jobT, 0, delivered_of 5 (panelT 5 3 { xT with gathered := true }) (frameT 5 3 (List.replicate 8 0 ++ beBytes 4 7 ++ [1] ++ List.replicate 19 0)) (connT 3) (List.replicate 8 0 ++ beBytes 4 7 ++ [1] ++ List.replicate 19 0) _ (by decide) (by decide) (by decide) (by decide) (by decide) (fun _ => Iff.rfl)⟩,
    delivered_of 6 (panelT 3 5 xT) (frameT 3 5 (List.replicate 4 0 ++ [2] ++ List.replicate 27 0)) (connT 5) (List.replicate 4 0 ++ [2] ++ List.replicate 27 0) _ (by decide) (by decide) (by decide) (by decide) (by decide) (fun _ => Iff.rfl),
    delivered_of 6 (panelT 3 5 {}) (frameT 3 5 (List.replicate 4 0 ++ [3] ++ List.replicate 27 0)) (connT 5) (List.replicate 4 0 ++ [3] ++ List.replicate 27 0) _ (by decide) (by decide) (by decide) (by decide) (by decide) (fun _ => Iff.rfl),
    ⟨{ id := 1 }, jobT, delivered_of 7 (panelT 3 5 xT) (frameT 3 5 (beBytes 4 2 ++ beBytes 4 7 ++ beBytes 4 1 ++ beBytes 2 8 ++ [1] ++ List.replicate 17 0)) (connT 5) (beBytes 4 2 ++ beBytes 4 7 ++ beBytes 4 1 ++ beBytes 2 8 ++ [1] ++ List.replicate 17 0) _ (by decide) (by decide) (by decide) (by decide) (by decide) (fun _ => Iff.rfl)⟩⟩

theorem witness_TributaryFramesComplete : ∃ (s u : State) (f : TFrame) (k : Conn) (b : List Byte), s.Hears 2 f k b ∧ f.flags.getLsbD 15 = false ∧
    b.length = 32 ∧ field b 8 4 < 2 ^ 24 ∧ zeroBytes b 20 12 = true ∧
    u = s.updConn k.part k.peer k.ix fun c => { c with rxCount := c.rxCount + 1, ceCount := c.ceCount + bnat f.ce } :=
  ⟨panelT 3 5 xT, _, sealT (panelT 3 5 xT) 2 (frameT 3 5 (List.replicate 32 0)) (connT 5) (List.replicate 32 0), connT 5, List.replicate 32 0,
    hears_sealT _ _ _ _ _ (by decide) (by decide), by decide, by decide, by decide, by decide, rfl⟩

/-- Partition 1 in lock-step with partition 2, and a message of a kind from it on the panel. -/
def pair0 : Pairing := { peerPanel := 0, peerPart := 2, pairId := 9, lag := 1, timeout := 100 }

def lsBody (kind : Nat) : List Byte := beBytes 4 9 ++ beBytes 1 kind ++ List.replicate 27 0
def lsWire (kind : Nat) : TWire := ⟨0xFF, 8, 1, 2, 0, 0, 0, 0, 0, 0, 0, 0, 0, lsBody kind, {}⟩
def lsFrame (kind : Nat) : TFrame := { port := 0xFF, dstPart := 1, srcPart := 2, body := lsBody kind }

def lsPanel (pr : Pairing) (kind : Nat) : State :=
  { panel1 with parts := [(1, { run := some { id := 1, lockstep := true }, pairing := some pr })], trib := { sent := [lsWire kind] } }

theorem witness_LockstepMessagesComplete :
    (∀ kind ∈ List.range 5, (lsPanel pair0 kind).trib.sent.find? (fun w => decide (w.port = 0xFF) && decide (w.type = 8) &&
      decide (w.dstPart = (lsFrame kind).dstPart.toNat) && decide (w.srcPart = (lsFrame kind).srcPart.toNat) && decide (w.body = (lsFrame kind).body)) =
        some (lsWire kind) ∧ field (lsBody kind) 0 4 = pair0.pairId.toNat ∧ field (lsBody kind) 4 1 = kind) ∧
    ((lsPanel { pair0 with startSent := true } 0).pairOf 1 ≠ none ∧ ({ pair0 with startSent := true } : Pairing).started = false) ∧
    pair0.startSent = false ∧ (lsPanel pair0 3).err.due = [] := by decide

/-- A frame in the retransmission buffer, sent n times. -/
def tsent (n : Nat) : TSent := { seq := 4, type := 1, context := 0, flags := 0, payload := [], xmit := n }

theorem witness_TransportTimersComplete :
    ((lsPanel pair0 1).pairOf 1 = some pair0 ∧ pair0.peerHeld = false) ∧
    ((∃ s : State, s.conn 1 5 0 = some { connT 5 with unacked := [tsent 0] }) ∧ (tsent 0).flags &&& tFlagMcast = 0 ∧
      (connT 5).taken (tsent 0) = false ∧ (tsent 0).xmit < (panel1.tport 0).retryMax ∧ (panel1.tport 0).retryMax ≤ (tsent 15).xmit) ∧
    (∃ s : State, s.Calm ∧ s.conn 1 5 0 = some { connT 5 with ackDue := 1 } ∧ 0 < ({ connT 5 with ackDue := 1 } : Conn).ackDue) ∧
    (20000 ≤ (500 - (connT 5).lastCut) * 40 ∧ (connT 5).rate ≤ (connT 5).line ∧ (connT 5).target ≤ (connT 5).line) ∧
    ((panelT 3 5 { run := some { id := 1, open_ := false } }).running 1 = some ({ id := 1, open_ := false }, jobT) ∧
      (panelT 3 5 { run := some { id := 1, open_ := false } }).connsReady 1 = false) ∧
    ((panel1.tport 3).up = false) ∧
    ((panelT 3 5 xT).Calm ∧ ((panelT 3 5 xT).tport 0).up = true ∧ ((panelT 3 5 xT).tport 0).disabled = false ∧
      (panelT 3 5 xT).power.deepIdle = false ∧ (panelT 3 5 xT).panelNo ≠ none) ∧
    (panel1.fuses.hasPort 0x17 = true ∧ (panel1.tport 0x17).disabled = false ∧ panel1.power.deepIdle = false) :=
  ⟨by decide, ⟨⟨{ panelT 3 5 xT with trib := { conns := [{ connT 5 with unacked := [tsent 0] }] } }, by decide⟩, by decide, by decide, by decide⟩,
    ⟨{ panelT 3 5 xT with trib := { conns := [{ connT 5 with ackDue := 1 }] } }, ⟨rfl, rfl, rfl⟩, by decide, by decide⟩,
    ⟨by decide, by show (0 : Rat) ≤ 0; exact le_refl _, by show (0 : Rat) ≤ 0; exact le_refl _⟩, by decide, by decide,
    ⟨⟨rfl, rfl, rfl⟩, by decide, by decide, by decide, by decide⟩, by decide⟩

/-! ## Steps -/

theorem witness_StepRunsFront : ({ panel1 with pending := [.testAccessPort .idcode] } : State).pending = .testAccessPort .idcode :: [] := rfl

theorem witness_IdleTick :
    panel1.pending = [] ∧ (panel1.power.refUp = true ∧ panel1.power.auxUp = true) ∧ (powP { auxUp := false }).power.auxUp = false ∧
      (panel1.diePower 0).asleep = false ∧ panel1.power.inReset = false ∧ panel1.power.deepIdle = false := by decide

theorem geom1_legal : panel1.GeomLegal := ⟨by decide, by decide, by decide⟩

theorem witness_StepKeepsGeometry :
    panel1.GeomLegal ∧ panel1.fuses.graded = true ∧ ∃ t, step { panel1 with pending := [.testAccessPort .idcode] } = .next t :=
  ⟨geom1_legal, by decide +kernel, _, rfl⟩

theorem witness_CensusCode : panel1.GeomLegal ∧ rect1 ∈ panel1.geom ∧ rect1.part = 1 ∧ ∀ r ∈ panel1.geom, r.part ≠ 2 :=
  ⟨geom1_legal, by decide, rfl, by decide⟩

/-- The limits of R454 where they meet: 1,050 MHz at most, 250 MHz at 105 degrees. -/
theorem witness_EffectiveTileClock :
    (powP { inReset := false, dies := [(0, { fReq := 255, tjClamp := true, railClamp := true })], blade := true }).power.blade = true ∧
      (panel1.diePower 0).tjClamp = false := by decide

theorem witness_EveryCommandEnds : (∀ f : VFrame, Instr.resetN ≠ .partCreate f) ∧ (∀ f : VFrame, Instr.resetN ≠ .partDestroy f) ∧
    Instr.resetN ≠ .expSeed ∧ Instr.resetN ≠ .deepIdleExit ∧ Instr.resetN ≠ .scrubWake := ⟨by simp, by simp, by simp, by simp, by simp⟩

/-! ## Values of the manual's worked examples -/

/-- Chapter 1, placing a logical tile: T(29,40) of a grade A panel, then with local physical row 2 of its column retired. -/
theorem test_place : placeTile 12 (fun _ _ => true) 29 40 = some (29, 43) ∧
    placeTile 12 (fun _ y => decide (y ≠ 41)) 29 40 = some (29, 44) ∧ placeTile 12 (fun _ y => decide (y ≠ 41)) 29 38 = some (29, 42) ∧
    placeTile 12 (fun _ y => decide (y ≠ 41)) 29 47 = some (29, 51) ∧
    placeTile 12 (fun _ y => decide (y ≠ 41 ∧ y ≠ 42)) 29 47 = none := by decide

/-- Chapter 2, stochastic rounding: 0x3F8A_B3C0 to BF16, r = 9 and r = 13. -/
theorem test_rs_rounding : convert ⟨.bf16, .rs, false, false⟩ 9 (f32 0x3F8AB3C0) = (0x3F8B, {}) ∧
    convert ⟨.bf16, .rs, false, false⟩ 13 (f32 0x3F8AB3C0) = (0x3F8A, {}) := by decide +kernel

/-- Chapter 3, the compensated sum: 37,748,734.875 and 7,251,265.125 as pairs. -/
theorem test_pairs : normPair (.fin false 301989879 (-3)) = ⟨0x4C100000, 0xBF900000⟩ ∧
    normPair (.fin false 58010121 (-3)) = ⟨0x4ADD4A82, 0x3E000000⟩ := by decide +kernel

/-- Chapter 5: word and offset of index 0x0000_0001_0000_00E5 in width 4, and the loaded register of vectors K4 and K5. -/
theorem test_riffle_load : riffleLoad 42 5 0x1000000E = 0x5851F42D4C957F28A3B195C2F06D4FA3 ∧
    riffleLoad 0x0123456789ABCDEFFEDCBA9876543210 1 0xFFFFFFFFFFFFFFFF = 0x5972B14AC53EB2C3A292D0A569C68268 := by decide +kernel

/-- Chapter 6, Table 6-20: k(x) by R137 and R138 at x = -2.5, -1, 1 and 1.5. -/
theorem test_ladder :
    (logit8 18).cmp (.fin true 5 (-1)) = .lt ∧ (logit8 19).cmp (.fin true 5 (-1)) ≠ .lt ∧
    (logit8 68).cmp (.fin true 1 0) = .lt ∧ (logit8 69).cmp (.fin true 1 0) ≠ .lt ∧
    (logit8 186).cmp (.fin false 1 0) = .lt ∧ (logit8 187).cmp (.fin false 1 0) ≠ .lt ∧
    (logit8 208).cmp (.fin false 3 (-1)) = .lt ∧ (logit8 209).cmp (.fin false 3 (-1)) ≠ .lt := by decide +kernel

/-- Chapter 6: the index of variable 4 in sweep 1. -/
theorem test_su_index : suBinary 9 1 0 4 = (9, 0x4000000004) := by decide

/-- Table 15-6: the conditioner's vectors C2, C3 and C4. -/
theorem test_conditioner : condition (List.replicate 767 false ++ [true]) = 0x425 ∧
    condition (List.replicate 511 false ++ true :: List.replicate 256 false) = 0x100411 ∧
    condition (List.replicate 255 false ++ true :: List.replicate 512 false) = 0x4240D275 := by decide +kernel

/-- Chapter 16, replanning die 13: SLOW, V_OFF and F_MAX. -/
theorem test_replan : slowPpm 25439833 25690112 705 68 1200 400 = 12507 ∧ planDie 12507 1 200 = (3, 200) := by decide +kernel

/-! ## Single steps -/

/-- Table 1-3: the census of a partition 4 tiles wide and 4 high. -/
theorem test_census : panel1.census 1 = 0x00040004 ∧ panel1.census 2 = 0 := by decide

/-- What the last register read of a step returned. -/
def readAfter (s : State) (c : Instr) : Option Word :=
  match step { s with pending := [c] } with
  | .next t => some t.readOut
  | _ => none

/-- Chapter 14: the IDCODE of the test port. -/
theorem test_idcode : readAfter panel1 (.testAccessPort .idcode) = some 0xB4872A3D := by decide

/-- One step goes on, to a panel of which p holds. -/
def goesTo (s : State) (p : State → Bool) : Bool :=
  match step s with
  | .next t => p t
  | _ => false

/-- A queue of two: one step runs the first and leaves the second (R200: the scrub moves on). -/
theorem test_queue : goesTo { panel1 with pending := [.sramScrub 0 0 .clean, .testAccessPort .bypass] }
    (fun t => decide (t.pending = [.testAccessPort .bypass] ∧ t.mesh.scrub.getD 0 0 = 1)) = true := by decide

/-- W1C (R11): a write of 1 clears a flag of FP_STATUS, a write of 0 keeps it. -/
theorem test_w1c : goesTo { withTile { fp := 0xF } with pending := [.registerWrite (.fpStatus 0) 0x5] }
    (fun t => decide ((t.tile 0).fp = 0xA)) = true := by decide

/-- R9, R500: after RESET_N the persistent registers stand and the tiles are at reset. -/
theorem test_reset : goesTo { withTile { fp := 0xF } with pending := [.resetN], firm := { mode := .run, pregs := [(511, { value := 5, wcount := 1 })] } }
    (fun t => decide (t.preg 511 = { value := 5, wcount := 1 } ∧ t.tiles = [] ∧ t.power.inReset = true ∧ t.power.resetCause = 1)) = true := by decide

/-- R354: LOOP with count 2 then ENDLOOP goes back to the body once. -/
theorem test_loop : goesTo { withTile { pos := 3, loops := [(1, 2)] } with
      parts := [(1, { run := some { id := 1, open_ := true } })], pending := [.loopClose 0] }
    (fun t => decide ((t.tile 0).pos = 1 ∧ (t.tile 0).loops = [(1, 1)])) = true := by decide

/-- R448: an empty queue lets 400 REF cycles pass (log 10). -/
theorem test_idle : goesTo panel1 (fun t => decide (t.clock.ref = 400 ∧ t.parts = panel1.parts)) = true := by decide

end Sys2Proof.Tests
end

section
/-! PROOFS. The rectangles of the partitions: what keeps them legal (R28, R29), and the census code (R30). -/

namespace Sys2Proof.Machine

/-! ## Legal rectangles -/

/-- Rectangles taken away leave the others legal; so do equal ones. -/
theorem State.GeomLegal.of_sublist {s t : State} (hs : s.GeomLegal) (hf : t.fuses = s.fuses) (hg : t.geom.Sublist s.geom) :
    t.GeomLegal where
  shapes r hr := hf ▸ hs.shapes r (hg.subset hr)
  apart := hs.apart.sublist hg
  few := hg.length_le.trans hs.few

/-- A rectangle of the shape of R28 that shares no tile and no number with the others joins fewer than 64 of them (R28, R29). -/
theorem State.GeomLegal.of_append {s t : State} {r : Rect} (hs : s.GeomLegal) (hf : t.fuses = s.fuses) (hg : t.geom = s.geom ++ [r])
    (hshape : r.shapeOk s.fuses.rows = true ∧ 1 ≤ r.part ∧ r.part ≤ 64)
    (hapart : ∀ q ∈ s.geom, q.overlaps r = false ∧ q.part ≠ r.part) (hfew : s.geom.length < 64) : t.GeomLegal where
  shapes q hq := by
    rw [hg, List.mem_append, List.mem_singleton] at hq
    rw [hf]
    obtain hq | rfl := hq
    · exact hs.shapes q hq
    · exact hshape
  apart := by
    rw [hg, List.pairwise_append]
    exact ⟨hs.apart, List.pairwise_singleton _ _, fun q hq r' hr' => List.mem_singleton.mp hr' ▸ hapart q hq⟩
  few := by
    rw [hg, List.length_append, List.length_singleton]
    exact hfew

/-- The second state has the fuses of the first, and legal rectangles if the first has. -/
def State.KeepsLegal (s t : State) : Prop := t.fuses = s.fuses ∧ (s.GeomLegal → t.GeomLegal)

theorem State.KeepsLegal.of_sublist {s t : State} (hf : t.fuses = s.fuses) (hg : t.geom.Sublist s.geom) : s.KeepsLegal t :=
  ⟨hf, fun hs => hs.of_sublist hf hg⟩

theorem State.KeepsLegal.of_eq {s t : State} (hf : t.fuses = s.fuses) (hg : t.geom = s.geom) : s.KeepsLegal t :=
  .of_sublist hf (hg ▸ .refl _)

theorem State.KeepsLegal.refl (s : State) : s.KeepsLegal s := .of_eq rfl rfl

theorem State.KeepsLegal.trans {s t u : State} (h : s.KeepsLegal t) (g : t.KeepsLegal u) : s.KeepsLegal u :=
  ⟨g.1.trans h.1, fun hs => g.2 (h.2 hs)⟩

/-- The state before may be any other with the same fuses and rectangles. -/
theorem State.KeepsLegal.from_eq {s s' t : State} (h : s'.KeepsLegal t) (hf : s'.fuses = s.fuses) (hg : s'.geom = s.geom) :
    s.KeepsLegal t :=
  (State.KeepsLegal.of_eq hf hg).trans h

theorem State.HostOnly.keepsLegal {s t : State} (h : s.HostOnly t) : s.KeepsLegal t := by
  unfold State.HostOnly at h
  rw [h]
  exact .of_eq rfl rfl

theorem State.foldl_keepsLegal {α : Type} (g : State → α → State) (h : ∀ (s : State) (a : α), s.KeepsLegal (g s a)) (l : List α)
    (s : State) : s.KeepsLegal (l.foldl g s) := by
  induction l generalizing s with
  | nil => exact .refl s
  | cons a l ih => exact (h s a).trans (ih _)

/-! ## Requests that change which partitions exist -/

theorem State.reply_keepsLegal (s : State) (r : Req) (st : Status) (body : List Byte) : s.KeepsLegal (s.reply r st body) :=
  (s.reply_hostOnly r st body).keepsLegal

theorem State.KeepsLegal.reply {s t : State} (h : s.KeepsLegal t) (r : Req) (st : Status) (body : List Byte) :
    s.KeepsLegal (t.reply r st body) :=
  h.trans (t.reply_keepsLegal r st body)

theorem CreateReq.wellFormed_rect {c : CreateReq} {b : List Byte} {rows : Nat} (h : c.wellFormed b rows = true) :
    c.rect.shapeOk rows = true ∧ 1 ≤ c.rect.part ∧ c.rect.part ≤ 64 := by
  simp only [CreateReq.wellFormed, Bool.and_eq_true, decide_eq_true_eq] at h
  tauto

/-- A PART_CREATE that R29 permits names a rectangle and a number that no partition has. -/
theorem State.createRefused_apart {s : State} {c : CreateReq} (h : s.createRefused c = false) :
    ∀ q ∈ s.geom, q.overlaps c.rect = false ∧ q.part ≠ c.rect.part := by
  simp only [State.createRefused, Bool.or_eq_false_iff] at h
  obtain ⟨⟨⟨⟨⟨_, hnum⟩, htiles⟩, _⟩, _⟩, _⟩ := h
  simp only [State.rect, Option.isSome_eq_false_iff, Option.isNone_iff_eq_none, List.find?_eq_none, decide_eq_true_eq] at hnum
  exact fun q hq => ⟨by simpa using List.any_eq_false.mp htiles q hq, hnum q hq⟩

theorem State.createPart_keepsLegal (s : State) (r : Req) (c : CreateReq)
    (hshape : c.rect.shapeOk s.fuses.rows = true ∧ 1 ≤ c.rect.part ∧ c.rect.part ≤ 64)
    (hapart : ∀ q ∈ s.geom, q.overlaps c.rect = false ∧ q.part ≠ c.rect.part) (hfew : s.geom.length < 64) :
    s.KeepsLegal (s.createPart r c) := by
  cases h : s.createFrames c with
  | none =>
    rw [State.createPart_none s r c h]
    exact s.reply_keepsLegal r _ _
  | some f =>
    rw [State.createPart_of s r c f h]
    have hbuild : s.KeepsLegal (s.buildPart c f.pages f.tables f.after.hbm f.after.drawKeyPair.2.ent f.after.drawKeyPair.1) :=
      ⟨rfl, fun hs => hs.of_append rfl rfl hshape hapart hfew⟩
    exact hbuild.reply r _ _

/-- A request that draws from Headwater (R439) keeps the rectangles legal if its service does. -/
theorem State.withEntropy_keepsLegal (s : State) (r : Req) {serve : State → State} (h : s.KeepsLegal (serve s)) :
    s.KeepsLegal (s.withEntropy r serve) := by
  unfold State.withEntropy
  split
  · exact h
  · exact s.reply_keepsLegal _ _ _
  · exact .of_eq rfl rfl

theorem State.partCreateReq_keepsLegal (r : Req) (s : State) : s.KeepsLegal (s.partCreateReq r) := by
  unfold State.partCreateReq
  simp only []
  split_ifs with hform hfull hrefused
  · exact s.reply_keepsLegal r _ _
  · exact s.reply_keepsLegal r _ _
  · exact s.reply_keepsLegal r _ _
  · have hshape := CreateReq.wellFormed_rect (by simpa using hform)
    have hapart := State.createRefused_apart (Bool.eq_false_of_not_eq_true hrefused)
    exact s.withEntropy_keepsLegal r (s.createPart_keepsLegal r _ hshape hapart (by omega))

/-- Whatever ending the jobs and wiping the partition does, PART_DESTROY leaves the fuses and the other partitions' rectangles (R335). -/
theorem State.partDestroyReq_keepsLegal (r : Req) (s : State) : s.KeepsLegal (s.partDestroyReq r) := by
  unfold State.partDestroyReq
  simp only []
  split_ifs
  · exact s.reply_keepsLegal r _ _
  · exact s.reply_keepsLegal r _ _
  · apply State.KeepsLegal.reply
    apply State.KeepsLegal.of_sublist
    · rw [State.updBox_fuses, State.shaped_fuses]
    · rw [State.updBox_geom, State.shaped_geom]
      exact List.filter_sublist

/-- Any request handled, at once or after it has waited, keeps the rectangles legal. -/
theorem State.handle_keepsLegal (s : State) (r : Req) : s.KeepsLegal (s.handle r) := by
  unfold State.handle
  split
  · exact s.partCreateReq_keepsLegal r
  · exact s.partDestroyReq_keepsLegal r
  · exact .of_eq rfl rfl

/-! ## Requests that wait, and requests that arrive -/

theorem State.serveWaiters_keepsLegal (n : Nat) (s : State) : s.KeepsLegal (State.serveWaiters n s) := by
  induction n generalizing s with
  | zero => exact .refl s
  | succ n ih =>
    unfold State.serveWaiters
    split
    · split
      · exact .refl s
      · exact ((State.handle_keepsLegal _ _).trans (ih _)).from_eq rfl rfl
    · exact .refl s

theorem State.serveWakers_keepsLegal (s : State) (ws : List Waiter) : s.KeepsLegal (s.serveWakers ws) :=
  State.foldl_keepsLegal (fun s (w : Waiter) => s.handle w.req) (fun s w => s.handle_keepsLegal w.req) ws s

theorem State.updDie_keepsLegal (s : State) (d : Nat) (f : DiePower → DiePower) : s.KeepsLegal (s.updDie d f) :=
  .of_eq (s.updDie_fuses d f) (s.updDie_geom d f)

theorem State.leaveDeepIdle_keepsLegal (s : State) : s.KeepsLegal s.leaveDeepIdle := by
  unfold State.leaveDeepIdle
  extract_lets t
  have hdies : s.KeepsLegal t := by
    apply State.foldl_keepsLegal
    exact fun u n => u.updDie_keepsLegal n _
  clear_value t
  exact hdies.trans (.of_eq rfl rfl)

theorem State.scrubAll_keepsLegal (s : State) : s.KeepsLegal s.scrubAll := .of_eq rfl rfl

theorem State.replyErrorNull_hostOnly (s : State) (f : VFrame) (op : Nat) (st : Status) : s.HostOnly (s.replyErrorNull f op st) := by
  unfold State.replyErrorNull
  simp only []
  split <;> rfl

/-- A request frame that arrives (R317, R321) keeps the rectangles legal if its handler does. -/
theorem State.vorlaIn_keepsLegal (s : State) (op : Nat) (f : VFrame) {handle : Req → State → State}
    (h : ∀ (r : Req) (u : State), u.KeepsLegal (handle r u)) : s.KeepsLegal (s.vorlaIn op f handle) := by
  have hfront : s.KeepsLegal ((s.vorlaFront op f).1.shaped s.fuses s.geom) := .of_eq rfl rfl
  unfold State.vorlaIn
  simp only []
  split
  · exact hfront
  · split
    · split
      · exact hfront.trans (State.post_hostOnly _ _ _).keepsLegal
      · exact hfront.trans (State.replyErrorNull_hostOnly _ f op _).keepsLegal
    · split
      · exact hfront.trans (.of_eq rfl rfl)
      · exact (hfront.trans (State.updBox_hostOnly _ _ _).keepsLegal).trans (h _ _)

/-! ## The end of a command, and a step -/

theorem finish_keepsLegal (s u : State) : s.KeepsLegal (finish s u) := by
  refine .of_sublist rfl ?_
  unfold finish
  simp only []
  split
  · exact List.nil_sublist _
  · exact List.Sublist.refl _

theorem finish_next_keepsLegal {s u t : State} (h : (.next (finish s u) : Host.Outcome State Fault Refusal) = .next t) :
    s.KeepsLegal t := by
  cases h
  exact finish_keepsLegal s u

theorem finishGeom_keepsLegal {s t : State} (h : s.KeepsLegal t) : s.KeepsLegal (finishGeom s t) := by
  refine h.trans (.of_sublist h.1.symm ?_)
  unfold finishGeom
  simp only []
  split
  · exact List.nil_sublist _
  · exact List.Sublist.refl _

theorem execPartCreate_keepsLegal (f : VFrame) (s t : State) (h : execPartCreate f s = .next t) : s.KeepsLegal t := by
  cases h
  exact finishGeom_keepsLegal (s.vorlaIn_keepsLegal 0x30 f State.partCreateReq_keepsLegal)

theorem execPartDestroy_keepsLegal (f : VFrame) (s t : State) (h : execPartDestroy f s = .next t) : s.KeepsLegal t := by
  cases h
  exact finishGeom_keepsLegal (s.vorlaIn_keepsLegal 0x31 f State.partDestroyReq_keepsLegal)

theorem execExpSeed_keepsLegal (s t : State) (h : execExpSeed s = .next t) : s.KeepsLegal t := by
  cases h
  refine finishGeom_keepsLegal ?_
  split
  · exact (State.serveWaiters_keepsLegal _ _).from_eq rfl rfl
  · exact .refl s

theorem execDeepIdleExit_keepsLegal (s t : State) (h : execDeepIdleExit s = .next t) : s.KeepsLegal t := by
  cases h
  refine finishGeom_keepsLegal ?_
  split
  · exact s.leaveDeepIdle_keepsLegal.trans (State.serveWakers_keepsLegal _ _)
  · exact .refl s

theorem execScrubWake_keepsLegal (s t : State) (h : execScrubWake s = .next t) : s.KeepsLegal t := by
  cases h
  refine finishGeom_keepsLegal ?_
  split
  · exact (s.leaveDeepIdle_keepsLegal.trans (State.scrubAll_keepsLegal _)).trans (State.serveWakers_keepsLegal _ _)
  · exact .refl s

/-- Every command but the five named ends by putting back the rectangles it found (finish), so only those five need an argument of
their own. -/
theorem exec_keepsLegal (c : Instr) (s t : State) (h : exec c s = .next t) : s.KeepsLegal t := by
  cases c with
  | partCreate f => exact execPartCreate_keepsLegal f s t h
  | partDestroy f => exact execPartDestroy_keepsLegal f s t h
  | expSeed => exact execExpSeed_keepsLegal s t h
  | deepIdleExit => exact execDeepIdleExit_keepsLegal s t h
  | scrubWake => exact execScrubWake_keepsLegal s t h
  | _ => exact finish_next_keepsLegal h

theorem step_keepsLegal (s t : State) (h : step s = .next t) : s.KeepsLegal t := by
  unfold step at h
  split at h
  · cases h
    exact .of_eq rfl rfl
  · exact (exec_keepsLegal _ _ t h).from_eq rfl rfl

/-- Settles O57: one invariant, the fuses kept and the rectangles legal, carried through every command. -/
theorem stepKeepsGeometry : Obligations.StepKeepsGeometry := by
  intro s t hs hstep
  obtain ⟨hfuses, hlegal⟩ := step_keepsLegal s t hstep
  exact ⟨hlegal hs, congrArg Fuses.gradeC hfuses, fun hg => hfuses ▸ hg⟩

/-! ## The census code -/

theorem Fuses.rows_le (f : Fuses) : f.rows ≤ 72 := by
  unfold Fuses.rows Fuses.lrows
  split <;> omega

/-- R28: a rectangle's width and height lie within the grid. -/
theorem Rect.shapeOk_range {r : Rect} {f : Fuses} (h : r.shapeOk f.rows = true) : 4 ≤ r.w ∧ r.w ≤ 48 ∧ 2 ≤ r.h ∧ r.h ≤ 72 := by
  have := f.rows_le
  simp only [Rect.shapeOk, Bool.and_eq_true, decide_eq_true_eq] at h
  omega

/-- Legal rectangles carry different numbers, so a partition's number finds its own. -/
theorem State.GeomLegal.rect_of_mem {s : State} (hs : s.GeomLegal) {r : Rect} (hr : r ∈ s.geom) : s.rect r.part = some r := by
  have hnum : (s.geom.map Rect.part).Nodup := List.pairwise_map.mpr (hs.apart.imp fun h => h.2)
  cases h : s.rect r.part with
  | none => exact absurd (List.find?_eq_none.mp h r hr) (by simp)
  | some q =>
    have hq : q.part = r.part := by simpa using List.find?_some (show s.geom.find? _ = some q from h)
    rw [List.inj_on_of_nodup_map hnum (List.mem_of_find?_eq_some h) hr hq]

theorem State.rect_eq_none {s : State} {p : Nat} (h : ∀ r ∈ s.geom, r.part ≠ p) : s.rect p = none :=
  List.find?_eq_none.mpr fun r hr => by simpa using h r hr

theorem State.census_of_rect {s : State} {p : Nat} {r : Rect} (h : s.rect p = some r) : s.census p = r.w * 65536 + r.h := by
  simp only [State.census, h, Rect.census]

theorem State.census_of_none {s : State} {p : Nat} (h : s.rect p = none) : s.census p = 0 := by
  simp only [State.census, h]

/-- Settles O59: a partition's number finds its one rectangle, whose sides fit 16 bits each. -/
theorem censusCode : Obligations.CensusCode := by
  intro s p hs
  constructor
  · rintro r hr rfl
    obtain ⟨hw, hw', hh, hh'⟩ := Rect.shapeOk_range (hs.shapes r hr).1
    rw [State.census_of_rect (hs.rect_of_mem hr)]
    omega
  · exact fun h => State.census_of_none (State.rect_eq_none h)

end Sys2Proof.Machine
end

section
/-! PROOFS. The effective tile clock of a compute die (R454). -/

namespace Sys2Proof.Machine

/-- R454: the divider is in force while any of the three conditions holds. -/
theorem PowerState.halved_iff (p : PowerState) : p.halved = true ↔ p.dip = true ∨ p.hold = true ∨ p.blade = true := by
  simp only [PowerState.halved, Bool.or_eq_true, or_assoc]

/-- The lesser of two clocks in units of 5 MHz, in MHz. -/
theorem min_units_mul_five (a b : Nat) : ((min a b * 5 : Nat) : Rat) = min (5 * (a : Rat)) (5 * (b : Rat)) := by
  rw [mul_comm, ← Nat.mul_min_mul_left, Nat.cast_min]
  push_cast
  rfl

/-- The clock before the clamps: the request and the plan, capped at 1,050 MHz. -/
def cappedClock (fReq fPlan : Nat) : Rat := min (min (5 * (fReq : Rat)) (5 * (fPlan : Rat))) 1050

/-- The clock under the die's two clamps (R455, R456), before the divider. -/
def clampedClock (tjClamp railClamp : Bool) (f : Rat) : Rat :=
  let g := if tjClamp then min f 250 else f
  if railClamp then g * 7 / 8 else g

/-- The caps of `effClock` are minima, taken in the order of R454. -/
theorem effClock_eq (fReq fPlan : Nat) (tjClamp railClamp halved : Bool) :
    effClock fReq fPlan tjClamp railClamp halved =
      if halved then clampedClock tjClamp railClamp (cappedClock fReq fPlan) / 2
      else clampedClock tjClamp railClamp (cappedClock fReq fPlan) := by
  simp only [effClock, clampedClock, cappedClock, min_units_mul_five, ← min_def_lt]

theorem State.fEff_eq (s : State) (die : Nat) :
    s.fEff die =
      effClock (s.diePower die).fReq.toNat (s.plan die).2.1 (s.diePower die).tjClamp (s.diePower die).railClamp s.power.halved := rfl

/-- Settles O60: the steps of the pseudocode are the capped clock, the clamped clock and the divider. -/
theorem effectiveTileClock : Obligations.EffectiveTileClock := by
  rintro s die _ _ _ _ rfl rfl rfl rfl
  rw [State.fEff_eq, effClock_eq]
  simp only [PowerState.halved_iff]
  rfl

end Sys2Proof.Machine
end

section
/-! PROOFS. Dispatch of instructions of a tile: what one that completes leaves of the tile (R252, R273). -/

namespace Sys2Proof.Machine

/-! ## Commands on a calm panel -/

/-- The end of a command on a calm panel adds nothing where the command has raised nothing and leaves the queue and the shape. -/
theorem exec_calm {c : Instr} {s u : State} (e : exec c s = .next (finish s u)) (hc : s.Calm)
    (hdue : u.err.due = s.err.due := by rfl) (hreset : u.resetReq = s.resetReq := by rfl)
    (hup : u.power.inReset = s.power.inReset := by rfl) (hqueue : u.pending = s.pending := by rfl)
    (hfuses : u.fuses = s.fuses := by rfl) (hgeom : u.geom = s.geom := by rfl) : exec c s = .next u := by
  rw [e, finish_same s u (hdue.trans hc.due) (hreset.trans hc.reset) (hup.trans hc.up) hqueue hfuses hgeom]

theorem exec_calm_of_eq {c : Instr} {s v u : State} (e : exec c s = .next (finish s v)) (hv : v = u) (hc : s.Calm)
    (hdue : u.err.due = s.err.due := by rfl) (hreset : u.resetReq = s.resetReq := by rfl)
    (hup : u.power.inReset = s.power.inReset := by rfl) (hqueue : u.pending = s.pending := by rfl)
    (hfuses : u.fuses = s.fuses := by rfl) (hgeom : u.geom = s.geom := by rfl) : exec c s = .next u :=
  exec_calm (hv ▸ e) hc hdue hreset hup hqueue hfuses hgeom

/-! ## Dispatch -/

theorem State.dispatch_of {s : State} {k : Nat} {ok : Bool} (f : Nat → BitVec 32 → State → State) (hok : ok = true)
    (hi : s.canIssue k = true) :
    s.dispatch k ok f = f (s.ownerOf k) (s.tile k).iseq (s.withTile k (s.front k) (s.wakeTile k).power) := by
  rw [State.dispatch, hok, hi, Bool.and_self, if_pos rfl, State.took_withTile]
  rfl

/-- A command that dispatches an instruction on a calm panel, which changes its tile alone. -/
theorem exec_dispatch {c : Instr} {s : State} {k : Nat} {ok : Bool} {f : Nat → BitVec 32 → State → State} {y : TileState}
    (e : exec c s = .next (finish s (s.dispatch k ok f))) (hc : s.Calm) (hi : s.canIssue k = true) (hok : ok = true)
    (hf : f (s.ownerOf k) (s.tile k).iseq (s.withTile k (s.front k) (s.wakeTile k).power) = s.withTile k y (s.wakeTile k).power) :
    exec c s = .next (s.withTile k y (s.wakeTile k).power) := by
  rw [e, State.dispatch_of f hok hi, hf, finish_withTile s hc k y _ (s.wakeTile_up hc k)]

/-- So does one that completes in the tile's control. -/
theorem exec_dispatchPlain {c : Instr} {s : State} {k : Nat} {ok : Bool} {f : Nat → State → State} {y : TileState}
    (e : exec c s = .next (finish s (s.dispatchPlain k ok f))) (hc : s.Calm) (hi : s.canIssue k = true) (hok : ok = true)
    (hf : f (s.ownerOf k) (s.withTile k (s.front k) (s.wakeTile k).power) = s.withTile k y (s.wakeTile k).power) :
    exec c s =
      .next (s.withTile k (s.ended (s.ownerOf k) (s.tile k).iseq.toNat unitNone 0 y) (s.wakeTile k).power) :=
  exec_dispatch e hc hi hok (by rw [hf, State.withTile_completed])

@[simp] theorem State.withTile_indexWord (s : State) (k : Nat) (x : TileState) (w : PowerState) (p : Nat) (si : Bool) (i : Word) :
    (s.withTile k x w).indexWord p si i = s.indexWord p si i := rfl

/-! ## The tile at dispatch and at completion -/

section
variable (s : State) (k p iseq unit : Nat) (sum : Word) (x : TileState)

@[simp] theorem State.front_pos : (s.front k).pos = (s.tile k).pos + 1 := (s.took_keeps (s.ownerOf k) k).1
@[simp] theorem State.front_loops : (s.front k).loops = (s.tile k).loops := by simp [State.front, State.took_keeps]
@[simp] theorem State.front_array : (s.front k).array = (s.tile k).array := by simp [State.front, State.took_keeps]
@[simp] theorem State.front_ferry : (s.front k).ferry = (s.tile k).ferry := by simp [State.front, State.took_keeps]
@[simp] theorem State.front_waitFerry : (s.front k).waitFerry = none := by simp [State.front, State.took_keeps]
@[simp] theorem State.front_fp : (s.front k).fp = (s.tile k).fp := by simp [State.front, State.took_keeps]
@[simp] theorem State.front_seq : (s.front k).seq = (s.tile k).seq := by simp [State.front, State.took_keeps]
@[simp] theorem State.front_chains : (s.front k).chains = (s.tile k).chains := by simp [State.front, State.took_keeps]
@[simp] theorem State.front_bar : (s.front k).bar = (s.tile k).bar := by simp [State.front, State.took_keeps]
@[simp] theorem State.front_seed : (s.front k).seed = (s.tile k).seed := by simp [State.front, State.took_keeps]
@[simp] theorem State.front_riffleStop : (s.front k).riffleStop = (s.tile k).riffleStop := by simp [State.front, State.took_keeps]

@[simp] theorem State.ended_pos : (s.ended p iseq unit sum x).pos = x.pos := by rw [State.ended_eq]
@[simp] theorem State.ended_loops : (s.ended p iseq unit sum x).loops = x.loops := by rw [State.ended_eq]
@[simp] theorem State.ended_ended : (s.ended p iseq unit sum x).ended = x.ended := by rw [State.ended_eq]
@[simp] theorem State.ended_array : (s.ended p iseq unit sum x).array = x.array := by rw [State.ended_eq]
@[simp] theorem State.ended_fp : (s.ended p iseq unit sum x).fp = x.fp := by rw [State.ended_eq]
@[simp] theorem State.ended_vq : (s.ended p iseq unit sum x).vq = x.vq := by rw [State.ended_eq]
@[simp] theorem State.ended_waitFerry : (s.ended p iseq unit sum x).waitFerry = x.waitFerry := by rw [State.ended_eq]
end

end Sys2Proof.Machine
end

section
/-! PROOFS. Instructions of the stream, the array, the vector engine and the Riffle unit of one tile (R60-R127, R354-R360). -/

namespace Sys2Proof.Machine

/-! ## The stream -/

theorem loopOpen_completes {s : State} {k : Nat} (hc : s.Calm) (hi : s.canIssue k = true) {w0 : Word} (hz : bits w0.toNat 63 32 = 0)
    (hn : bits w0.toNat 31 0 ≠ 0) (hl : (s.tile k).loops.length < 4) :
    ∃ t, exec (.loopOpen k w0) s = .next t ∧ s.OnlyTile t k ∧ (t.tile k).pos = (s.tile k).pos + 1 ∧
      (t.tile k).loops = ((s.tile k).pos + 1, bits w0.toNat 31 0) :: (s.tile k).loops := by
  exact ⟨_, exec_dispatchPlain rfl hc hi (by simp [hz, hn, hl]) (s.withTile_updTile k _ _ _), s.withTile_only k _, by simp, by simp⟩

theorem loopClose_completes {s : State} {k : Nat} (hc : s.Calm) (hi : s.canIssue k = true) {start n : Nat} {rest : List (Nat × Nat)}
    (hl : (s.tile k).loops = (start, n) :: rest) :
    ∃ t, exec (.loopClose k) s = .next t ∧ s.OnlyTile t k ∧
      (1 < n → (t.tile k).pos = start ∧ (t.tile k).loops = (start, n - 1) :: rest) ∧
      (n ≤ 1 → (t.tile k).pos = (s.tile k).pos + 1 ∧ (t.tile k).loops = rest) := by
  exact ⟨_, exec_dispatchPlain rfl hc hi (by simp [hl]) (s.withTile_updTile k _ _ _), s.withTile_only k _,
    fun hn => by simp [hl, hn], fun hn => by simp [hl, Nat.not_lt.mpr hn]⟩

theorem endStream_completes {s : State} {k : Nat} (hc : s.Calm) (hi : s.canIssue k = true) (hl : (s.tile k).loops = [])
    (hh : s.inHandler (s.ownerOf k) = false) :
    ∃ t, exec (.endStream k) s = .next t ∧ s.OnlyTile t k ∧ (t.tile k).ended = true := by
  have hh' : (s.withTile k (s.front k) (s.wakeTile k).power).inHandler (s.ownerOf k) = false := hh
  exact ⟨_, exec_dispatchPlain rfl hc hi (by simp [hl]) ((if_neg (by simp [hh'])).trans (s.withTile_updTile k _ _ _)),
    s.withTile_only k _, by simp⟩

theorem endStream_handler {s : State} {k : Nat} (hi : s.canIssue k = true) (hl : (s.tile k).loops = [])
    (hh : s.inHandler (s.ownerOf k) = true) :
    exec (.endStream k) s = .next (finish s (((s.took (s.ownerOf k) k).handlerEnd (s.ownerOf k) k).completed
      (s.ownerOf k) k (s.tile k).iseq.toNat unitNone 0)) := by
  have : (s.took (s.ownerOf k) k).inHandler (s.ownerOf k) = true := by rw [State.took_withTile]; exact hh
  simp [exec, execEndStream, State.dispatchPlain, State.dispatch, hl, hi, this]

/-! ## Array operations -/

/-- An array operation that grows no issue too long for CANONICAL changes its tile alone (R95). -/
theorem State.withTile_arrayOp (s : State) (k : Nat) (x : TileState) (w : PowerState) (p : Nat) (f : ArrayFx → ArrayFx)
    {r : ArrayFx} (hr : f { arr := x.array, sram := x.sram } = r) (h : (r.arr.tooLong && !x.array.tooLong) = false) :
    (s.withTile k x w).arrayOp p k f =
      s.withTile k (({ x with array := r.arr, sram := r.sram } : TileState).flag r.flags) w := by
  simp only [State.arrayOp, State.withTile_tile, State.withTile_setTile, hr, h, Bool.false_eq_true, if_false]

theorem accCtrl_completes {s : State} {k : Nat} (hc : s.Calm) (hi : s.canIssue k = true) {v : BitVec 32}
    (hok : accCtrlOk (ins 0x04 false [v.setWidth 64]) = true) :
    ∃ t, exec (.accCtrl k v) s = .next t ∧ s.OnlyTile t k ∧ (t.tile k).array = (Claim.fx s k (ArrayFx.setCtrl v)).arr ∧
      (t.tile k).array.ctrl = (v &&& 0xFFFFFFEF) ||| ((s.tile k).array.ctrl &&& 0x10) := by
  obtain ⟨-, -, hlong, hctrl⟩ := ArrayFx.setCtrl_keeps v { arr := (s.front k).array, sram := (s.front k).sram }
  exact ⟨_, exec_dispatchPlain rfl hc hi hok (s.withTile_arrayOp k _ _ _ _ rfl (by rw [hlong, Bool.and_not_self])),
    s.withTile_only k _, by simp [Claim.fx, TileState.flag], by simpa [TileState.flag] using hctrl⟩

theorem waitFerry_completes {s : State} {k : Nat} (hc : s.Calm) (hi : s.canIssue k = true) {w0 : Word}
    (hok : singleOk (ins 0x0F false [w0]) = true) :
    ∃ t, exec (.waitFerry k w0) s = .next t ∧ s.OnlyTile t k ∧ (t.tile k).waitFerry =
      if ((s.tile k).slot (bits w0.toNat 5 0)).phase = .idle ∨ ((s.tile k).slot (bits w0.toNat 5 0)).phase = .done ∨
          bits w0.toNat 63 16 ≤ ((s.tile k).slot (bits w0.toNat 5 0)).done
      then none else some (bits w0.toNat 5 0, bits w0.toNat 63 16) := by
  have hslot : ∀ (x : TileState), x.ferry = (s.front k).ferry → ∀ n, x.slot n = (s.tile k).slot n := by
    intro x hx n
    rw [TileState.slot, TileState.slot, hx, State.front_ferry]
  split
  · rename_i hover
    refine ⟨_, exec_dispatch rfl hc hi hok ((if_pos ?_).trans (s.withTile_completed k _ _ _ _ _ _)), s.withTile_only k _, by simp⟩
    simpa [TileState.waitOver, hslot, or_assoc] using hover
  · rename_i hover
    refine ⟨_, exec_dispatch rfl hc hi hok ((if_neg ?_).trans (s.withTile_updTile k _ _ _)), s.withTile_only k _, by simp⟩
    simpa [TileState.waitOver, hslot, or_assoc] using hover

/-- Settles O1: each instruction is dispatched and leaves its tile as its own law says. -/
theorem streamControlCompletes : Obligations.StreamControlCompletes := fun _ _ hc hi =>
  ⟨fun _ hz hn hl => loopOpen_completes hc hi hz hn hl, fun _ _ _ hl => loopClose_completes hc hi hl, endStream_completes hc hi,
    endStream_handler hi, fun _ hok => accCtrl_completes hc hi hok, fun _ hok => waitFerry_completes hc hi hok⟩

/-! ## Array dispatch -/

/-- What an array instruction that is dispatched and completes has left in its tile. -/
theorem arrayLeft_withTile (s : State) (k iseq unit : Nat) (sum : Word) (w : PowerState) {r : ArrayFx} :
    Claim.arrayLeft s (s.withTile k (s.ended (s.ownerOf k) iseq unit sum
      (({ s.front k with array := r.arr, sram := r.sram } : TileState).flag r.flags)) w) k r := by
  refine ⟨by simp [TileState.flag], by simp [TileState.flag], fun h => ?_⟩
  rw [State.withTile_tile, State.ended_off _ _ _ _ _ _ h]
  rfl

theorem arrayFx_of_dispatch {s : State} {k : Nat} {w : PowerState} {p : Nat} {f : ArrayFx → ArrayFx}
    (h : (Claim.fx s k f).arr.tooLong = false) :
    (s.withTile k (s.front k) w).arrayOp p k f = s.withTile k
      (({ s.front k with array := (Claim.fx s k f).arr, sram := (Claim.fx s k f).sram } : TileState).flag (Claim.fx s k f).flags) w :=
  s.withTile_arrayOp k _ _ _ _ rfl (by rw [h, Bool.false_and])

/-- Settles O2: the three array instructions are array operations dispatched on one tile. -/
theorem arrayDispatchCompletes : Obligations.ArrayDispatchCompletes := by
  refine fun s k hc hi hfree => ⟨fun w0 w1 hok hlong => ?_, fun w0 hok hlong => ?_, fun si w0 w1 w2 hok hroom hlong => ?_⟩
  · exact ⟨_, exec_dispatchPlain rfl hc hi (by rw [hok, hfree]; rfl) (arrayFx_of_dispatch hlong), s.withTile_only k _, arrayLeft_withTile s k _ _ _ _⟩
  · exact ⟨_, exec_dispatchPlain rfl hc hi (by rw [hok, hfree]; rfl) (arrayFx_of_dispatch hlong), s.withTile_only k _, arrayLeft_withTile s k _ _ _ _⟩
  · exact ⟨_, exec_dispatch rfl hc hi (by simp [hok, hfree, hroom]) (arrayFx_of_dispatch hlong), s.withTile_only k _, by simp [TileState.flag]⟩

/-! ## The stages of the array -/

/-- An array operation of no instruction on a calm panel. -/
theorem exec_arrayOp {c : Instr} {s : State} {k : Nat} {f : ArrayFx → ArrayFx} {r : ArrayFx}
    (e : exec c s = .next (finish s (s.arrayOp (s.ownerOf k) k f))) (hc : s.Calm)
    (hr : f { arr := (s.tile k).array, sram := (s.tile k).sram } = r) (hlong : r.arr.tooLong = false) :
    ∃ t, exec c s = .next t ∧ s.OneTile t k ∧ (t.tile k).array = r.arr ∧ (t.tile k).sram = r.sram ∧
      (t.tile k).fp = (s.tile k).fp ||| r.flags.toBits := by
  have hop : s.arrayOp (s.ownerOf k) k f =
      s.withTile k (({ s.tile k with array := r.arr, sram := r.sram } : TileState).flag r.flags) s.power := by
    simp only [State.arrayOp, hr, hlong, Bool.false_and, Bool.false_eq_true, if_false, State.setTile_withTile]
  rw [hop, finish_withTile s hc k _ _ hc.up] at e
  exact ⟨_, e, s.withTile_one k _, by simp [TileState.flag], by simp [TileState.flag], by simp [TileState.flag]⟩

/-- A failed check (R87) stops array dispatch and raises the detector that Table 17-2 gives it. -/
theorem retire_failed {s : State} {k : Nat} {check : ArrayCheck} {det : Nat} (hdet : checkDet check = some det)
    (h : (s.tile k).array.issues ≠ []) :
    exec (.retire { tile := k, check := check }) s = .next (finish s ((s.updTile k TileState.arrayStop).raise
      { det := det, loc := s.locOf k, part := s.ownerOf k })) := by
  simp only [exec, execRetire, hdet, h, if_false]

/-- Settles O3: RETIRE and SPILL_COMBINE are array operations; a failed check takes RETIRE's other branch. -/
theorem arrayStagesComplete : Obligations.ArrayStagesComplete := by
  refine fun s k hc => ⟨fun i rest hi r hr hlong => ?_, fun c hmem h => ?_, fun r hr hlong => exec_arrayOp rfl hc hr.symm hlong⟩
  · exact exec_arrayOp rfl hc (by rw [ArrayFx.retire]; simp only [hi]; exact hr.symm) hlong
  · simp only [List.mem_cons, List.not_mem_nil, or_false] at hmem
    obtain rfl | rfl | rfl := hmem <;> exact retire_failed rfl h

/-! ## DRAIN_DONE -/

@[simp] theorem TileState.drainItems_array (w : DrainWords) (x : TileState) : (x.drainItems w).array = x.array := by rw [x.drainItems_eq w]
@[simp] theorem TileState.drainItems_fp (w : DrainWords) (x : TileState) : (x.drainItems w).fp = x.fp := by rw [x.drainItems_eq w]
@[simp] theorem TileState.drainItems_sram (w : DrainWords) (x : TileState) : (x.drainItems w).sram = x.sram := by rw [x.drainItems_eq w]

/-- Settles O4: the front drain has its snapshot and Riffle does not hold it, so its result is stored and the instruction completes. -/
theorem drainDoneCompletes : Obligations.DrainDoneCompletes := by
  intro s k d rest ps hc hd hps hrif r hr
  have hstop : ¬ ((DrainWords.ofWords d.w0 d.w1 d.w2).cvt.mode = .rs ∧ (s.tile k).riffleStop = true) := by
    rintro ⟨hrs, hst⟩
    simp [hrif hrs] at hst
  have e : exec (.drainDone k) s = .next (finish s (s.drainDone (s.ownerOf k) k)) := rfl
  simp only [State.drainDone, hd, hps, if_neg hstop, ← hr, State.setTile_withTile, State.withTile_completed] at e
  rw [finish_withTile s hc k _ _ hc.up] at e
  refine ⟨_, e, s.withTile_one k _, ?_, ?_, fun h => ?_⟩
  · simp [TileState.flag, TileState.store, apply_ite TileState.array]
  · simp [TileState.flag, TileState.store, apply_ite TileState.fp]
  · simp [s.ended_off _ _ _ _ _ h, TileState.flag, TileState.store, apply_ite TileState.sram]

/-! ## The vector engine -/

/-- What a vector instruction stores, joins to FP_STATUS and puts into the vector-queue registers. -/
theorem vectorOut_withTile (s : State) (k : Nat) (x : TileState) (w : PowerState) (p : Nat) (iseq : BitVec 32) (ws : List Word)
    (line : Nat) (used : TileState → TileState) (o : VectorOut) :
    (s.withTile k x w).vectorOut p k iseq ws line used o =
      s.withTile k (s.ended p iseq.toNat unitVector (s.contrib p k unitVector iseq.toNat line 0 o.writes)
        ((({ used x with vq := ws } : TileState).store o.writes).flag o.flags)) w := by
  simp only [State.vectorOut, State.withTile_contrib, State.withTile_updTile, State.withTile_completed]

/-- A tile whose Riffle buffer alone differs. -/
def TileState.RiffleOnly (x y : TileState) : Prop := y = { x with riffleBuf := y.riffleBuf }

theorem vectorLeft_withTile {s : State} {k : Nat} {w : PowerState} {iseq unit : Nat} {sum : Word} {ws : List Word} {o : VectorOut}
    {x : TileState} (hx : (s.front k).RiffleOnly x) :
    Claim.vectorLeft s (s.withTile k (s.ended (s.ownerOf k) iseq unit sum ((({ x with vq := ws } : TileState).store o.writes).flag o.flags)) w)
      k ws o := by
  unfold TileState.RiffleOnly at hx
  rw [hx]
  refine ⟨by simp [TileState.flag, TileState.store], by simp [TileState.flag, TileState.store], fun h => ?_⟩
  have hsram : (s.front k).sram = (s.tile k).sram := s.took_sram _ k h
  simp [s.ended_off _ _ _ _ _ h, TileState.flag, TileState.store, hsram]

theorem vrand_completes {c : Nat → Bool → Word → Word → Word → Word → Instr} {dist : Nat}
    {run : Word → Word → Word → Word → Nat → VectorOut}
    (e : ∀ k si w0 w1 w2 w3 s, exec (c k si w0 w1 w2 w3) s = .next (finish s (s.vrand k si w0 w1 w2 w3 dist run))) :
    Claim.vrand c dist run := by
  intro s k si w0 w1 w2 w3 hc hi hok hdist hrif
  refine ⟨_, exec_dispatch (e k si w0 w1 w2 w3 s) hc hi (by simp [hok, hdist, hrif]) (vectorOut_withTile s k _ _ _ _ _ _ _ _), s.withTile_only k _, ?_⟩
  simp only [State.withTile_indexWord, State.withTile_tile, State.front_seed]
  exact vectorLeft_withTile (TileState.useItems_eq _ _ _ _ _)

/-- Settles O5: the ten distributions are one operation with a distribution number and a function of the items. -/
theorem vrandCompletes : Obligations.VrandCompletes :=
  ⟨vrand_completes fun _ _ _ _ _ _ _ => rfl, vrand_completes fun _ _ _ _ _ _ _ => rfl, vrand_completes fun _ _ _ _ _ _ _ => rfl,
    vrand_completes fun _ _ _ _ _ _ _ => rfl, vrand_completes fun _ _ _ _ _ _ _ => rfl, vrand_completes fun _ _ _ _ _ _ _ => rfl,
    vrand_completes fun _ _ _ _ _ _ _ => rfl, vrand_completes fun _ _ _ _ _ _ _ => rfl, vrand_completes fun _ _ _ _ _ _ _ => rfl,
    vrand_completes fun _ _ _ _ _ _ _ => rfl⟩

theorem vop_completes {c : Nat → Bool → Word → Word → Word → Word → Instr} {op : Nat}
    {run : Word → Word → Word → Word → Nat → Mem → VectorOut}
    (e : ∀ k si w0 w1 w2 w3 s, exec (c k si w0 w1 w2 w3) s = .next (finish s (s.vop k si w0 w1 w2 w3 op run))) :
    Claim.vop c op run := by
  intro s k si w0 w1 w2 w3 hc hi hok hop hrif
  have hstall : ((s.tile k).riffleStop && decide ((VopWords.ofWords w0 w1 w2 w3).cvt.mode = .rs)) = false := by
    by_cases h : (VopWords.ofWords w0 w1 w2 w3).cvt.mode = .rs <;> simp [h, hrif]
  refine ⟨_, exec_dispatch (e k si w0 w1 w2 w3 s) hc hi (by simp only [hok, hop, hstall]; rfl)
    (vectorOut_withTile s k _ _ _ _ _ _ _ _), s.withTile_only k _, ?_⟩
  simp only [State.withTile_tile, State.front_seed]
  refine vectorLeft_withTile ?_
  rw [ite_apply]
  split
  · exact TileState.useItems_eq _ _ _ _ _
  · rfl

/-- Settles O6: the twelve operations are one with an operation number and a function of the operands. -/
theorem vopCompletes : Obligations.VopCompletes :=
  ⟨vop_completes fun _ _ _ _ _ _ _ => rfl, vop_completes fun _ _ _ _ _ _ _ => rfl, vop_completes fun _ _ _ _ _ _ _ => rfl,
    vop_completes fun _ _ _ _ _ _ _ => rfl, vop_completes fun _ _ _ _ _ _ _ => rfl, vop_completes fun _ _ _ _ _ _ _ => rfl,
    vop_completes fun _ _ _ _ _ _ _ => rfl, vop_completes fun _ _ _ _ _ _ _ => rfl, vop_completes fun _ _ _ _ _ _ _ => rfl,
    vop_completes fun _ _ _ _ _ _ _ => rfl, vop_completes fun _ _ _ _ _ _ _ => rfl, vop_completes fun _ _ _ _ _ _ _ => rfl⟩

/-! ## The Riffle unit -/

/-- Settles O7: a lane that runs and finds room appends its word. -/
theorem riffleWordCompletes : Obligations.RiffleWordCompletes := by
  intro s k stream index hc hrun hroom
  have e : exec (.riffleWord k stream index) s = .next (finish s (s.updTile k _)) := rfl
  have hgo : ¬ ((s.tile k).riffleStop = true ∨ 4096 ≤ (s.tile k).riffleBuf.length) := by simp [hrun, hroom]
  rw [e, State.updTile, if_neg hgo, State.setTile_withTile, finish_withTile s hc k _ _ hc.up]

/-! ## The draw unit -/

theorem draw_completes {c : DrawAt → Word → Word → Word → Word → Instr} {phase : Nat}
    (e : ∀ (a : DrawAt) w0 w1 w2 w3 s, exec (c a w0 w1 w2 w3) s = .next (finish s (s.draw a.tile a.rows w0 w1 w2 w3 phase))) :
    Claim.draw c phase := by
  rintro s k rows w0 w1 w2 w3 _ rfl hphase
  refine ⟨?_, fun hbusy hvq hmay => ?_⟩
  · rintro _ hi hok hrif hready rfl
    have hbusy : (s.tile k).drawBusy = false := by
      simp only [State.canIssue, Bool.and_eq_true, Bool.not_eq_true'] at hi
      exact hi.2
    simp [e, State.draw, State.dispatch, hbusy, hi, hok, hphase, hrif, hready]
  · simp [e, State.draw, hbusy, hvq, hphase, hmay]

theorem drawCommands : Claim.drawCommands :=
  ⟨draw_completes fun _ _ _ _ _ _ => rfl, draw_completes fun _ _ _ _ _ _ => rfl, draw_completes fun _ _ _ _ _ _ => rfl⟩

theorem State.drawRows_one {s : State} {p k : Nat} {d : DrawWords} (hbusy : (s.tile k).drawBusy = true)
    (hrow : (s.tile k).drawRows.toNat < d.nrows) : State.drawRows p k d 1 s = s.drawRow p k d (s.tile k).sram := by
  simp [State.drawRows, hbusy, hrow]

/-- Settles O8: the phases are one operation; a row raises 0x0221 or is drawn; the end of the last row is `drawEnd`'s first branch. -/
theorem drawCompletes : Obligations.DrawCompletes := by
  refine ⟨drawCommands, ?_, fun s p k d hbusy hend => ?_⟩
  · rintro s p k d _ hbusy hrow rfl
    rw [State.drawRows_one hbusy hrow]
    refine ⟨?_, fun hraise => ?_⟩
    · rintro _ hraise rfl
      simp [State.drawRow, hraise, State.updTile, hbusy]
    · simp only [State.drawRow, hraise, if_true]
      rfl
  · simp [State.drawEnd, hbusy, hend, State.updTile]

end Sys2Proof.Machine
end

section
/-! PROOFS. FERRY, chains and the start of the sequencer (R98-R111, R144-R161, R243-R249). -/

namespace Sys2Proof.Machine

/-! ## What taking an instruction does not read or change -/

section
variable (s : State) (p q k : Nat)

@[simp] theorem State.took_ownerOf : (s.took p k).ownerOf = s.ownerOf := by rw [State.took_withTile]; rfl
@[simp] theorem State.took_rect : (s.took p k).rect q = s.rect q := by rw [State.took_withTile]; rfl
@[simp] theorem State.took_panel : (s.took p k).panel = s.panel := by rw [State.took_withTile]; rfl
@[simp] theorem State.took_groupAbsent (d : Desc) : (s.took p k).groupAbsent q d = s.groupAbsent q d := by
  rw [State.took_withTile]; rfl
@[simp] theorem State.took_chainCut (c : ChainWords) : (s.took p k).chainCut q c = s.chainCut q c := by
  rw [State.took_withTile]; rfl

@[simp] theorem State.front_chainRegs : (s.front k).chainRegs = (s.tile k).chainRegs := by
  unfold State.front State.took
  simp only [State.tile_updTile, TileState.takes, State.wakeTile_keeps_tile]
  split
  · rw [State.completed_eq]
    split
    · rfl
    · rw [State.tile_setTile, TileState.instrEntry_eq]
  · rfl
end

/-- A dispatched instruction works on the state that has left its front instruction behind. -/
theorem State.dispatch_took {s : State} {k : Nat} {ok : Bool} (f : Nat → BitVec 32 → State → State) (hok : ok = true)
    (hi : s.canIssue k = true) : s.dispatch k ok f = f (s.ownerOf k) (s.tile k).iseq (s.took (s.ownerOf k) k) := by
  rw [State.dispatch, hok, hi, Bool.and_self, if_pos rfl]

/-! ## FERRY -/

/-- A FERRY of either kind that may dispatch starts its descriptor or refuses it (R243, R244). -/
theorem ferryOp_dispatched {s : State} {k : Nat} {si : Bool} {w0 : Word} {ws : List Word} (hi : s.canIssue k = true)
    (hok : singleOk (ins 0x08 si [w0]) = true) (hfree : ((s.tile k).slot (bits w0.toNat 5 0)).free = true)
    (hws : ws = s.loadWords (s.ownerOf k) k (bits w0.toNat 63 48) si) (hrif : (s.tile k).ferryStalls (Desc.ofWords ws) = false) :
    s.ferryOp k si w0 (Desc.ofWords ws).fill =
      if ((Desc.ofWords ws).ok ws (fun u => decide (s.ownerOf u = s.ownerOf k)) && !(s.groupAbsent (s.ownerOf k) (Desc.ofWords ws))) = true
      then (s.took (s.ownerOf k) k).ferryStart (s.ownerOf k) k (bits w0.toNat 5 0) ws (s.tile k).iseq
      else (s.took (s.ownerOf k) k).ferryRefuse (s.ownerOf k) k (bits w0.toNat 5 0) ws (s.tile k).iseq := by
  subst hws
  rw [State.ferryOp, State.dispatch_took _ (by simp [hok, hfree, hrif]) hi, State.took_ownerOf, State.took_groupAbsent]

theorem ferryAccepted : Claim.ferryAccepted := by
  refine fun s k => ⟨fun si w0 ws hi hok hfree hws hrif hform hgroup => ?_, fun hc => ?_⟩
  · have h := ferryOp_dispatched hi hok hfree hws hrif
    rw [if_pos (by rw [hform, hgroup]; rfl)] at h
    exact ⟨fun hfill => by rw [← h, hfill]; rfl, fun hfill => by rw [← h, hfill]; rfl⟩
  · exact exec_calm rfl hc

/-- Settles O9: FERRY starts a descriptor that is well formed and whose group exists, and refuses one that is not well formed. -/
theorem ferryCompletes : Obligations.FerryCompletes := by
  refine ⟨ferryAccepted, fun s k si w0 ws hi hok hfree hws hrif hform => ?_⟩
  have h := ferryOp_dispatched hi hok hfree hws hrif
  rw [if_neg (by simp [hform])] at h
  exact ⟨fun hfill => by rw [← h, hfill]; rfl, fun hfill => by rw [← h, hfill]; rfl⟩

/-! ## The chain queue -/

theorem chainOp_enters {s : State} {k : Nat} {w0 w1 w2 : Word} (hi : s.canIssue k = true) (hfit : s.chainFits k w0 w1 w2 = true)
    (hroom : (s.tile k).chains.length < 2) :
    exec (.chainOp k w0 w1 w2) s = .next (finish s
      (if s.chainCut (s.ownerOf k) (ChainWords.ofWords w0 w1 w2) = true then
        ((s.took (s.ownerOf k) k).chainEnter (s.ownerOf k) k (s.tile k).iseq w0 w1 w2 false).endJob (s.ownerOf k) .peerLost
      else (s.took (s.ownerOf k) k).chainEnter (s.ownerOf k) k (s.tile k).iseq w0 w1 w2 false)) := by
  have e : exec (.chainOp k w0 w1 w2) s = .next (finish s (s.dispatch k _ _)) := rfl
  rw [e, State.dispatch_took _ (by simp [hfit, hroom]) hi, State.took_chainCut]

theorem chainOp_completes {s : State} {k : Nat} {w0 w1 w2 : Word} (hc : s.Calm) (hi : s.canIssue k = true)
    (hfit : s.chainFits k w0 w1 w2 = true) (hroom : (s.tile k).chains.length < 2)
    (hcut : s.chainCut (s.ownerOf k) (ChainWords.ofWords w0 w1 w2) = false) :
    ∃ t, exec (.chainOp k w0 w1 w2) s = .next t ∧ s.OnlyTile t k ∧
      (t.tile k).chains = (s.tile k).chains ++
        [{ w0 := w0, w1 := w1, w2 := w2, step := (s.meridian (s.ownerOf k)).toNat, iseq := (s.tile k).iseq,
           ready := (s.front k).tokens.contains ((ChainWords.ofWords w0 w1 w2).id, (s.meridian (s.ownerOf k)).toNat), energy := false,
           pos := (s.tile k).pos + 1 }] ∧
      (t.tile k).chainRegs = drainRegsPut (s.tile k).chainRegs (s.tile k).chains.length [w0, w1, w2] := by
  have e := chainOp_enters hi hfit hroom
  rw [hcut, if_neg (by simp), State.took_withTile, State.chainEnter, State.withTile_updTile,
    finish_withTile s hc k _ _ (s.wakeTile_up hc k)] at e
  refine ⟨_, e, s.withTile_only k _, ?_, ?_⟩
  · rw [State.withTile_tile]
    show (s.front k).chains ++ [_] = _
    rw [State.front_chains, ← State.front_pos]
    rfl
  · rw [State.withTile_tile]
    show drainRegsPut (s.front k).chainRegs (s.front k).chains.length _ = _
    rw [State.front_chainRegs, State.front_chains]

/-- What READY_TOKEN does to the tile that it reaches (R103). -/
def TileState.tokenIn (key : Nat × Nat) (x : TileState) : TileState :=
  if x.chains.any fun e => e.names key.1 key.2 then
    { x with chains := x.chains.map fun e => if e.names key.1 key.2 then { e with ready := true } else e }
  else if x.tokens.contains key then x
  else { x with tokens := x.tokens ++ [key] }

theorem TileState.tokenIn_ready (key : Nat × Nat) (x : TileState) :
    ∀ e ∈ (x.tokenIn key).chains, e.names key.1 key.2 = true → e.ready = true := by
  intro e he hname
  unfold TileState.tokenIn at he
  split at he
  · simp only [List.mem_map] at he
    obtain ⟨a, -, rfl⟩ := he
    split at hname
    · rename_i h
      rw [if_pos h]
    · rename_i h
      exact absurd hname h
  · rename_i hno
    have : e ∈ x.chains := by split at he <;> exact he
    exact absurd (List.any_eq_true.mpr ⟨e, this, hname⟩) hno

theorem TileState.tokenIn_kept {key : Nat × Nat} {x : TileState} (h : (x.chains.any fun e => e.names key.1 key.2) = false) :
    key ∈ (x.tokenIn key).tokens ∧ (x.tokenIn key).chains = x.chains := by
  unfold TileState.tokenIn
  rw [h, if_neg (by simp)]
  split
  · rename_i hin
    exact ⟨by simpa using hin, rfl⟩
  · exact ⟨by simp, rfl⟩

theorem readyToken_completes {s : State} {k : Nat} (hc : s.Calm) {id : BitVec 32} {at_ : Word} {u : Nat} {e : ChainEntry}
    (hu : u ∈ s.tilesOf (s.ownerOf k)) (he : e ∈ (s.tile u).chains) (hname : e.names id.toNat at_.toNat = true) (htoken : e.token = true)
    (hmesh : onMesh e.words.inDir = true) (hdir : dirTile u e.words.inDir = k) (hopen : s.legsOpen (s.ownerOf k) = true) :
    exec (.readyToken k id at_) s = .next (s.withTile k ((s.tile k).tokenIn (id.toNat, at_.toNat)) s.power) := by
  have hsent : ((s.tilesOf (s.ownerOf k)).any fun u => (s.tile u).chains.any fun e =>
      e.names id.toNat at_.toNat && e.token && onMesh e.words.inDir && decide (dirTile u e.words.inDir = k)) = true :=
    List.any_eq_true.mpr ⟨u, hu, List.any_eq_true.mpr ⟨e, he, by simp [hname, htoken, hmesh, hdir]⟩⟩
  have e : exec (.readyToken k id at_) s = .next (finish s (s.takeToken k id.toNat at_.toNat)) := rfl
  rw [e, State.takeToken, hsent, hopen, Bool.and_self, if_pos rfl]
  exact congrArg _ (finish_withTile s hc k _ _ hc.up)

/-- Settles O10: CHAIN enters the queue, and its leg is cut or not; READY_TOKEN marks or is kept. -/
theorem chainQueueCompletes : Obligations.ChainQueueCompletes := by
  refine fun s k hc => ⟨fun w0 w1 w2 hi hfit hroom => ⟨chainOp_completes hc hi hfit hroom, fun hcut => ?_⟩,
    fun id at_ u e hu he hname htoken hmesh hdir hopen => ?_⟩
  · rw [chainOp_enters hi hfit hroom, if_pos hcut]
  · refine ⟨_, readyToken_completes hc hu he hname htoken hmesh hdir hopen, s.withTile_one k _, ?_, fun hno => ?_⟩ <;> rw [State.withTile_tile]
    · exact TileState.tokenIn_ready _ _
    · exact TileState.tokenIn_kept hno

/-! ## Legs -/

/-- Where no sequencer waits for the member, nothing follows its part in the leg. -/
theorem chainDone_plain {s : State} {p k : Nat} {e : ChainEntry} (h : e.energy = false) (es : List Pair) :
    s.chainDone p k (some (e, es)) = s := by
  simp [State.chainDone, h]

theorem legStart_own {s : State} {k : Nat} {e : ChainEntry} {rest : List ChainEntry} (hq : (s.tile k).chains = e :: rest)
    (hen : e.energy = false) (htoken : e.token = true) (hhead : e.words.legHead = true) (hopen : s.legsOpen (s.ownerOf k) = true)
    (hdir : e.words.inDir ≠ 5) : exec (.legStart k) s = .next (finish s (s.chainRun (s.ownerOf k) k e none).1) := by
  simp [exec, execLegStart, State.legGo, hq, htoken, hhead, hopen, hdir, chainDone_plain hen]

theorem legStart_inbox {s : State} {k : Nat} {e : ChainEntry} {rest : List ChainEntry} (hq : (s.tile k).chains = e :: rest)
    (hen : e.energy = false) (htoken : e.token = true) (hhead : e.words.legHead = true) (hopen : s.legsOpen (s.ownerOf k) = true)
    {x : Part} {i : ChainIn} (hdir : e.words.inDir = 5) (hx : s.part (s.ownerOf k) = some x)
    (hfind : (x.chainIn.find? fun i => decide (i.id = e.words.id) && decide (i.step = e.step)) = some i) (habort : i.abort = false)
    (htotal : i.total = some (8 * e.words.entries)) (hcover : partsCover 0 (8 * e.words.entries) i.parts = true)
    (hlead : i.lead = e.words.segFirst) (hop : i.op = e.words.op) (hmixed : i.mixed = false) :
    exec (.legStart k) s =
      .next (finish s (s.chainRun (s.ownerOf k) k e (some (bytePairs e.words.entries (i.parts.flatMap (·.2))))).1) := by
  simp [exec, execLegStart, State.legGo, hq, htoken, hhead, hopen, hdir, hx, hfind, habort, htotal, hcover, hlead, hop, hmixed,
    chainDone_plain hen]

theorem chainFlit_taken {s : State} {k : Nat} {e : ChainEntry} {rest : List ChainEntry} (hq : (s.tile k).chains = e :: rest)
    (hen : e.energy = false) {f : Nat × ChainFlit} {got : List Byte} {y : State} (hmesh : onMesh e.words.inDir = true)
    (hf : (s.tile k).vc1.find? (fun f => decide (f.1 = e.words.inDir)) = some f)
    (hlead : e.started = true ∨ e.words.accepts (Lead.ofBytes f.2.data) = true) (hgot : got = e.got ++ f.2.data)
    (hy : y = s.setTile k { s.tile k with vc1 := (s.tile k).vc1.erase f, chains := { e with started := true, got := got } :: rest }) :
    (got.length < 8 + e.words.packed → exec (.chainFlit k) s = .next (finish s y)) ∧
    (8 + e.words.packed ≤ got.length → exec (.chainFlit k) s =
      .next (finish s (y.chainRun (s.ownerOf k) k e (some (bytePairs e.words.entries (got.drop 8)))).1)) := by
  subst hgot hy
  have horder : (!e.started && !e.words.accepts (Lead.ofBytes f.2.data)) = false := by rcases hlead with h | h <;> simp [h]
  refine ⟨fun hlen => ?_, fun hlen => ?_⟩
  · simp only [exec, execChainFlit, State.flitGo, hq, hmesh, if_true, hf, horder, Bool.false_eq_true, if_false, hlen, State.chainDone]
  · simp only [exec, execChainFlit, State.flitGo, hq, hmesh, if_true, hf, horder, Bool.false_eq_true, if_false, Nat.not_lt.mpr hlen,
      chainDone_plain hen]

/-- Settles O11: a leg starts with its head's own partials or with a result of the inbox; a flit is taken, or is out of order. -/
theorem chainLegsComplete : Obligations.ChainLegsComplete := by
  refine ⟨fun s k e rest hq hen => ⟨fun htoken hhead hopen => ⟨legStart_own hq hen htoken hhead hopen,
      fun x i => legStart_inbox hq hen htoken hhead hopen⟩, fun f got y => chainFlit_taken hq hen⟩,
    fun s k e rest f hq hstart hmesh hf hlead => ?_⟩
  simp [exec, execChainFlit, State.flitGo, hq, hmesh, hf, hstart, hlead, State.chainDone, State.orderError]

/-! ## SU_RUN -/

/-- Reading the ring leaves the words and the place of the control block (R144). -/
theorem TileState.ringPull_keeps (x : TileState) : x.ringPull.seq.ctrlLine = x.seq.ctrlLine ∧ x.ringPull.seq.words = x.seq.words := by
  unfold TileState.ringPull
  split
  · split <;> exact ⟨rfl, rfl⟩
  · exact ⟨rfl, rfl⟩

/-- What CHECK tests of the control block that a tile has read. -/
theorem State.checkGo_primes {u : State} {p k : Nat} {c : SeqCopy} (hready : c.ready (u.tile k).seq.got 15 = true)
    (hcheck : c.check (u.tile k).sram (u.tile k).seq.got (u.tile k).seq.ctrlLine (u.tile k).seq.words u.panel
      (fun v => decide (u.ownerOf v = p)) = .ok) : u.checkGo p k c = u.primeGo p k c := by
  simp [State.checkGo, hready, hcheck]

theorem State.checkGo_waits {u : State} {p k : Nat} {c : SeqCopy} (hready : c.ready (u.tile k).seq.got 15 = false)
    (hform : c.formOk (u.tile k).seq.ctrlLine (u.tile k).seq.words u.panel (fun v => decide (u.ownerOf v = p)) = true) :
    u.checkGo p k c = u := by
  simp [State.checkGo, hready, hform]

/-- Settles O12: CHECK passes or waits for its records, on the control block that SU_RUN has just copied. -/
theorem suRunCompletes : Obligations.SuRunCompletes := by
  rintro s k w0 hi hok hidle hphase hstop p line m words c u rfl hline hm hwords hc hu
  have e : exec (.suRun k w0) s = .next (finish s (u.checkGo (s.ownerOf k) k c)) := by
    have e : exec (.suRun k w0) s = .next (finish s (s.dispatch k _ _)) := rfl
    rw [State.dispatch_took _ (by simp [hok, hidle, hphase, hstop]) hi] at e
    rw [e, hu, hc, hwords, hm, hline]
    rfl
  have hpanel : u.panel = s.panel := by rw [hu]; exact State.took_panel _ _ _
  have howner : u.ownerOf = s.ownerOf := by rw [hu]; exact State.took_ownerOf _ _ _
  obtain ⟨hctrl, hword⟩ : (u.tile k).seq.ctrlLine = line ∧ (u.tile k).seq.words = words := by
    rw [hu, State.tile_updTile]
    exact TileState.ringPull_keeps _
  rw [e]
  refine ⟨fun hready hcheck => ?_, fun hready hform => ?_⟩
  · rw [State.checkGo_primes hready (by rw [hctrl, hword, hpanel, howner]; exact hcheck)]
    rfl
  · rw [State.checkGo_waits hready (by rw [hctrl, hword, hpanel, howner]; exact hform)]

end Sys2Proof.Machine
end

section
/-! PROOFS. The boundary exchange of the sequencer (R156-R163) and the barrier (R207, R267). -/

namespace Sys2Proof.Machine

/-! ## Boundary flits -/

theorem SeqState.waits_of_active {q : SeqState} (h : q.active = true) : q.waits = false := by
  simp only [SeqState.active, decide_eq_true_eq] at h
  obtain h | h | h | h := h <;> simp [SeqState.waits, h]

@[simp] theorem SeqState.stage_withStage (q : SeqState) (h : Nat) (l : List (Nat × Nat)) : (q.withStage h l).stage h = l := by
  unfold SeqState.withStage SeqState.stage
  split <;> simp_all

@[simp] theorem SeqState.ends_withEnds (q : SeqState) (h : Nat) (l : List Nat) : (q.withEnds h l).ends h = l := by
  unfold SeqState.withEnds SeqState.ends
  split <;> simp_all

/-- An import that a running sequencer's staging half has room for goes to its end (R162). -/
theorem State.withTile_stagePut (s : State) (k : Nat) (x : TileState) (w : PowerState) (p : Nat) {c : SeqCopy} {step : Nat} (slot v : Nat)
    (hcopy : x.seq.copy = some c) (hactive : x.seq.active = true)
    (hroom : (if c.ctl.dense then 520 else 8) * ((x.seq.stage (halfOf step)).length + 1) ≤ c.ctl.stageLines * 64) :
    ∃ y, (s.withTile k x w).stagePut p k step slot v = s.withTile k y w ∧ y.su = x.su ∧
      y.seq.stage (halfOf step) = x.seq.stage (halfOf step) ++ [(slot, v)] := by
  unfold State.stagePut
  simp only [State.withTile_tile, hcopy, hactive, Nat.not_lt.mpr hroom, Bool.not_true, Bool.false_eq_true, if_false, State.withTile_updTile]
  exact ⟨_, rfl, rfl, by simp [TileState.updSeq, TileState.store]⟩

theorem exportFlit_completes {s : State} {k src : Nat} {c : SeqCopy} {rest : List (Nat × SuFlit)} (hc : s.Calm)
    (hcopy : (s.tile k).seq.copy = some c) {step slot v : Nat} (hflit : takeFrom src (s.tile k).su = some (.value step slot v, rest))
    (hactive : (s.tile k).seq.active = true)
    (hroom : (if c.ctl.dense then 520 else 8) * (((s.tile k).seq.stage (halfOf step)).length + 1) ≤ c.ctl.stageLines * 64) :
    ∃ t, exec (.exportFlit k src) s = .next t ∧ s.OneTile t k ∧ (t.tile k).su = rest ∧
      (t.tile k).seq.stage (halfOf step) = (s.tile k).seq.stage (halfOf step) ++ [(slot, v)] := by
  obtain ⟨y, hy, hsu, hstage⟩ := s.withTile_stagePut k { s.tile k with su := rest } s.power (s.ownerOf k) slot v hcopy hactive hroom
  have hin : s.exportIn k src = s.withTile k y s.power := by
    rw [← hy, State.exportIn]
    simp only [hflit, SeqState.waits_of_active hactive, Bool.false_eq_true, if_false, State.setTile_withTile]
  have e : exec (.exportFlit k src) s = .next (finish s (s.exportIn k src)) := rfl
  rw [hin, finish_withTile s hc k _ _ hc.up] at e
  exact ⟨_, e, s.withTile_one k _, by rw [State.withTile_tile, hsu], by rw [State.withTile_tile, hstage]⟩

theorem endMarker_completes {s : State} {k src : Nat} {c : SeqCopy} {rest : List (Nat × SuFlit)} (hc : s.Calm)
    (hcopy : (s.tile k).seq.copy = some c) {step : Nat} (hflit : takeFrom src (s.tile k).su = some (.endMark step, rest))
    (hstarted : (s.tile k).seq.waits = false) (hstep : (s.tile k).seq.step ≤ step) (hpeer : ∃ r ∈ c.peers, r.panel = s.panel ∧ r.tile = src) :
    ∃ t, exec (.endMarker k src) s = .next t ∧ s.OneTile t k ∧ (t.tile k).su = rest ∧
      (t.tile k).seq.ends (halfOf step) = src :: (s.tile k).seq.ends (halfOf step) := by
  have hany : (!(c.peers.any fun r => decide (r.panel = s.panel) && decide (r.tile = src))) = false := by simpa using hpeer
  have hin : s.endIn k src = s.withTile k (({ s.tile k with su := rest } : TileState).updSeq fun q =>
      q.withEnds (halfOf step) (src :: q.ends (halfOf step))) s.power := by
    unfold State.endIn
    simp only [hflit, hcopy, hstarted, Bool.false_eq_true, if_false]
    exact (if_neg (ne_true_of_eq_false hany)).trans ((if_pos hstep).trans (s.withTile_updTile k _ _ _))
  have e : exec (.endMarker k src) s = .next (finish s (s.endIn k src)) := rfl
  rw [hin, finish_withTile s hc k _ _ hc.up] at e
  exact ⟨_, e, s.withTile_one k _, by simp [TileState.updSeq], by simp [TileState.updSeq]⟩

/-- Boundary flits wait for the run they are for (log 41). -/
theorem exchange_waits {s : State} {k src : Nat} (hc : s.Calm)
    (hwait : (s.tile k).seq.waits = true) :
    exec (.exportFlit k src) s = .next s ∧ exec (.endMarker k src) s = .next s := by
  have hexport : s.exportIn k src = s := by
    unfold State.exportIn
    simp only [hwait, if_true]
    split <;> rfl
  have hend : s.endIn k src = s := by
    unfold State.endIn
    simp only [hwait, if_true]
    split <;> rfl
  exact ⟨exec_calm_of_eq rfl hexport hc, exec_calm_of_eq rfl hend hc⟩

/-- Settles O13: an export and an END of a peer are taken, or both wait; an END of no peer is a fault of the sequencer. -/
theorem exchangeCompletes : Obligations.ExchangeCompletes := by
  refine ⟨fun s k src c rest hc hcopy => ⟨fun _ _ _ => exportFlit_completes hc hcopy, fun _ => endMarker_completes hc hcopy,
    exchange_waits hc⟩, fun s k src step c rest hcopy hflit hstarted hnone => ?_⟩
  have hany : (!(c.peers.any fun r => decide (r.panel = s.panel) && decide (r.tile = src))) = true := by simpa using hnone
  have hin : s.endIn k src = (s.setTile k { s.tile k with su := rest }).seqFault (s.ownerOf k) k 0x0906 := by
    unfold State.endIn
    simp only [hflit, hcopy, hstarted, Bool.false_eq_true, if_false]
    exact if_pos hany
  rw [← hin]
  rfl

/-! ## The staging copy -/

/-- What lets a sequencer go on (R168). -/
theorem stagingCopy : Claim.stagingCopy := by
  rintro s k c u hcopy hactive hmay hrif hcheck hprime hwait rfl hgo hends hsent
  have hnoprime : ¬ ((s.tile k).seq.phase = .prime ∧ (s.tile k).seq.again = true) := by
    rintro ⟨h, h'⟩
    simp [hprime h] at h'
  simp only [exec, execStagingCopy, State.seqGo, hcopy, hactive, hmay, hrif, hcheck, hnoprime, hwait, hgo, hends, hsent, Bool.not_true,
    Bool.or_false, Bool.and_true, Bool.false_eq_true, if_false, if_true]

/-- Settles O14: every import is in range, so the copy is made; the step is no PRIME, and a colour is left. -/
theorem stagingCopyCompletes : Obligations.StagingCopyCompletes := by
  refine ⟨stagingCopy, ?_⟩
  rintro s p k c _ _ rfl hstep hcolour himport rfl
  have hall : ((s.tile k).seq.stage (halfOf (s.tile k).seq.step)).all (fun e => c.importOk e.1) = true := List.all_eq_true.mpr himport
  simp only [State.copyGo, hall, hstep, hcolour, Bool.not_true, Bool.false_eq_true, if_false, if_true]

/-! ## TRACE_RD -/

/-- Settles O15: no tile of the partition waits for trace space, so none goes on. -/
theorem traceRdCompletes : Obligations.TraceRdCompletes := by
  intro s k v hc hnone
  have hnone' : ∀ t ∈ s.tilesOf (s.ownerOf k),
      ((s.setTile k { s.tile k with seq := { (s.tile k).seq with traceRd := v.toNat % 2 ^ 16 } }).tile t).seq.traceWait = false := by
    intro t ht
    by_cases h : t = k
    · subst h
      simpa using hnone t ht
    · rw [State.tile_setTile_other _ _ h]
      exact hnone t ht
  have hfold : ∀ (p : Nat) (u : State) (l : List Nat), (∀ t ∈ l, (u.tile t).seq.traceWait = false) →
      l.foldl (fun s t => if (s.tile t).seq.traceWait then s.seqGo p t else s) u = u := by
    intro p u l hl
    induction l with
    | nil => rfl
    | cons t l ih =>
      rw [List.foldl_cons, hl t (by simp), if_neg (by simp)]
      exact ih fun t ht => hl t (by simp [ht])
  exact exec_calm_of_eq rfl (hfold _ _ _ hnone') hc

end Sys2Proof.Machine
end

section
/-! PROOFS. The barrier: gather, release and the path of RELEASE (R207, R267). -/

namespace Sys2Proof.Machine

/-! ## Lists of tiles -/

theorem State.tile_updTiles_other (s : State) {ts : List Nat} {j : Nat} (f : TileState → TileState) (h : j ∉ ts) :
    (s.updTiles ts f).tile j = s.tile j := by
  induction ts generalizing s with
  | nil => rfl
  | cons t ts ih =>
    rw [List.mem_cons, not_or] at h
    show ((s.updTile t f).updTiles ts f).tile j = _
    rw [ih _ h.2, State.tile_updTile_other s f h.1]

/-- Every tile of the list has what the change gives any tile. -/
theorem State.tile_updTiles_mem (s : State) {ts : List Nat} {j : Nat} {f : TileState → TileState} {P : TileState → Prop}
    (hf : ∀ x, P (f x)) (h : j ∈ ts) : P ((s.updTiles ts f).tile j) := by
  induction ts generalizing s with
  | nil => cases h
  | cons t ts ih =>
    show P (((s.updTile t f).updTiles ts f).tile j)
    by_cases hj : j ∈ ts
    · exact ih _ hj
    · obtain rfl : j = t := (List.mem_cons.mp h).resolve_right hj
      rw [State.tile_updTiles_other _ f hj, State.tile_updTile]
      exact hf _

/-! ## The path -/

/-- A tile's predecessors on the path lie west and south of it. -/
theorem Rect.lt_of_mem_barFrom {q : Rect} {k j : Nat} (h : j ∈ q.barFrom k) : j < k := by
  simp only [Rect.barFrom, List.mem_append] at h
  obtain h | h := h <;> split at h
  · rw [List.mem_singleton] at h
    omega
  · cases h
  · rw [List.mem_singleton] at h
    omega
  · cases h

theorem releasePath : Claim.releasePath := by
  intro s q k failed
  have hself : k ∉ q.barFrom k := fun h => (Rect.lt_of_mem_barFrom h).false
  have hown : (s.barComplete q k failed).tile k = { s.tile k with bar := {}, halted := (s.tile k).halted || failed } := by
    unfold State.barComplete
    simp only []
    rw [State.tile_updTiles_other _ _ hself, State.tile_updTile]
  refine ⟨by rw [hown], by rw [hown], fun j hj => ?_, fun j hj hout => ?_⟩
  · exact State.tile_updTiles_mem _ (P := fun x => x.bar.release = some failed) (fun _ => rfl) hj
  · unfold State.barComplete
    simp only []
    rw [State.tile_updTiles_other _ _ hout, State.tile_updTile_other _ _ hj]

/-! ## Issue and gather -/

/-- A tile that may dispatch issues its instruction and passes its ARRIVE on once it holds every arrival. -/
theorem barIssue_dispatched {s : State} {k : Nat} {q : Rect} (hq : s.rect (s.ownerOf k) = some q) (hi : s.canIssue k = true) (step : Bool) :
    s.barIssue k step =
      (Claim.bar (s.took (s.ownerOf k) k) k fun b => { b with issued := some step, iseq := (s.tile k).iseq }).barPass (s.ownerOf k) q k := by
  rw [State.barIssue, State.dispatch_took _ rfl hi, State.took_rect, hq]
  rfl

/-- A tile that lacks an arrival passes nothing on. -/
theorem State.barPass_waits {s : State} {p k : Nat} {q : Rect}
    (h : ((q.barFrom k).all fun t => (s.tile k).bar.held.any fun h => decide (h.1 = t)) = false) : s.barPass p q k = s := by
  simp [State.barPass, BarState.ready, h]

theorem barIssue_waits {c : Instr} {s : State} {k : Nat} {q : Rect} {step : Bool} (e : exec c s = .next (finish s (s.barIssue k step)))
    (hq : s.rect (s.ownerOf k) = some q) (hc : s.Calm) (hi : s.canIssue k = true)
    (hwait : ((q.barFrom k).all fun t => (s.tile k).bar.held.any fun h => decide (h.1 = t)) = false) :
    ∃ t, exec c s = .next t ∧ s.OnlyTile t k ∧ (t.tile k).bar = { (s.tile k).bar with issued := some step, iseq := (s.tile k).iseq } := by
  rw [barIssue_dispatched hq hi, Claim.bar, State.took_withTile, State.withTile_updTile, State.barPass_waits ?_,
    finish_withTile s hc k _ _ (s.wakeTile_up hc k)] at e
  · exact ⟨_, e, s.withTile_only k _, by rw [State.withTile_tile, ← s.front_bar k]; rfl⟩
  · rw [State.withTile_tile, ← hwait, ← s.front_bar k]
    rfl

theorem barrierArrive_held {s : State} {k src : Nat} {q : Rect} {kind : Bool} (hq : s.rect (s.ownerOf k) = some q)
    (hkind : (s.tile src).bar.issued = some kind) (hsrc : q.has src = true) (hnext : q.barNext src = some k)
    (hsent : (s.tile src).bar.sent = true) (hrel : (s.tile src).bar.release = none)
    (hnew : (s.tile k).bar.held.any (fun h => decide (h.1 = src)) = false) :
    exec (.barrierArrive k src) s = .next (finish s
      ((Claim.bar s k fun b => { b with held := b.held ++ [(src, kind, (s.tile src).bar.failed)] }).barPass (s.ownerOf k) q k)) := by
  simp only [exec, execBarrierArrive, State.barArrive, hq, hkind, hsrc, hnext, hsent, hrel, hnew, Bool.not_false, and_self, if_true]
  rfl

/-- A RELEASE that has not failed completes the instruction that its tile has issued. -/
theorem barrierRelease_completes {s : State} {k : Nat} {q : Rect} {kind : Bool} (hq : s.rect (s.ownerOf k) = some q)
    (hrel : (s.tile k).bar.release = some false) (hkind : (s.tile k).bar.issued = some kind) :
    exec (.barrierRelease k) s =
      .next (finish s ((if kind = false then s.barEntry (s.ownerOf k) k else s).barComplete q k false)) := by
  cases kind <;> simp [exec, execBarrierRelease, State.barRelease, hq, hrel, hkind]

/-- Settles O16: issue, gather, and the release of either instruction. -/
theorem barrierCompletes : Obligations.BarrierCompletes := by
  refine fun s k q hq => ⟨fun hi => ⟨?_, ?_⟩, fun hc hi hwait => ⟨barIssue_waits rfl hq hc hi hwait, barIssue_waits rfl hq hc hi hwait⟩,
    fun src kind hkind hsrc hnext hsent hrel hnew => barrierArrive_held hq hkind hsrc hnext hsent hrel hnew,
    fun hrel hkind => ?_, fun hrel hkind => ?_⟩
  · rw [← barIssue_dispatched hq hi]
    rfl
  · rw [← barIssue_dispatched hq hi]
    rfl
  · rw [barrierRelease_completes hq hrel hkind, if_pos rfl]
  · rw [barrierRelease_completes hq hrel hkind, if_neg (by simp)]

/-- Settles O17: the north-east tile finds nothing that holds the release back. -/
theorem barrierReleasePath : Obligations.BarrierReleasePath := by
  refine ⟨releasePath, ?_⟩
  rintro s _ q x r j hq rfl hx hrun hrel hsent hdisp hok hstep hpeer hflag hadv
  simp [exec, execBarrierRelease, State.barRelease, State.tryRelease, hq, hx, hrun, hrel, hsent, hdisp, hok, hstep, hpeer, hflag, hadv]

end Sys2Proof.Machine
end

section
/-! PROOFS. Flits at routers, merged reads, stitch links and the SRAM scrub (R194-R218). -/

namespace Sys2Proof.Machine

/-! ## Arrival -/

/-- A flit that the link leaves as it is reaches the meaning of its kind, or is dropped for a malformed header (R199). -/
theorem State.arrive_eq {s : State} {x y : Nat} {last : Out} {f : Flit} (h : Claim.arrives s x y last f) (go : Out → Flit → State → State) :
    s.arrive x y f go = if f.headerOk = true then go last f (s.land x y f) else (s.land x y f).headerDrop x y := by
  obtain ⟨hx, hy, hcame, hhead, hlink⟩ := h
  have hgrid : ¬ (48 ≤ x ∨ 78 ≤ y) := by omega
  have hsame : ({ f with link := .clean, poisoned := f.poisoned || decide (f.link = .failed) } : Flit) = f := by
    cases f
    simp_all
  have hclean : f.link ≠ .corrected := by rw [hlink]; decide
  simp only [State.arrive, if_neg hgrid, hcame, hhead, Bool.false_eq_true, if_false, if_neg hclean, Bool.not_eq_true', ← Bool.not_eq_true,
    ite_not]
  rw [hhead] at hsame
  rw [hsame]

theorem State.arrive_of {s : State} {x y : Nat} {last : Out} {f : Flit} (h : Claim.arrives s x y last f) (hok : f.headerOk = true)
    (go : Out → Flit → State → State) : s.arrive x y f go = go last f (s.land x y f) :=
  (State.arrive_eq h go).trans (if_pos hok)

theorem State.arrive_malformed {s : State} {x y : Nat} {last : Out} {f : Flit} (h : Claim.arrives s x y last f) (hok : f.headerOk = false)
    (go : Out → Flit → State → State) : s.arrive x y f go = (s.land x y f).headerDrop x y :=
  (State.arrive_eq h go).trans (if_neg (ne_true_of_eq_false hok))

/-- One whose header the link has lost is a device fault (R199). -/
theorem State.arrive_lost {s : State} {x y : Nat} {last : Out} {f : Flit} (hx : x < 48) (hy : y < 78) (hcame : s.cameOver x y f = some last)
    (hhead : f.headLost = true) (go : Out → Flit → State → State) :
    s.arrive x y f go = (s.land x y f).raise { det := 0x0402, loc := Loc.at x y, cls := some 4 } := by
  have hgrid : ¬ (48 ≤ x ∨ 78 ≤ y) := by omega
  simp only [State.arrive, if_neg hgrid, hcame, hhead, if_true]

theorem exec_writeFlit {s : State} {x y : Nat} {f : Flit} (h : f.type = .write) :
    exec (.writeFlit x y f) s = .next (finish s (s.writeAt x y f)) := by
  simp only [exec, execWriteFlit, h, true_or, if_true]

theorem exec_readReq {s : State} {x y : Nat} {f : Flit} (h : f.type = .readReq) :
    exec (.readReq x y f) s =
      .next (finish s ((s.leaveWaiting x y f).arrive x y f fun last f s => s.readAt last x y f)) := by
  simp only [exec, execReadReq, h, true_or, if_true]

theorem exec_rspList {s : State} {x y : Nat} {f : Flit} (h : f.type = .rspList) :
    exec (.rspList x y f) s = .next (finish s (s.arrive x y f fun _ f s => s.forkAt x y f)) := by
  simp only [exec, execRspList, h, true_or, if_true]

theorem exec_readRsp {s : State} {x y : Nat} {f : Flit} (h : f.type = .readRsp) :
    exec (.readRsp x y f) s = .next (finish s (s.responseAt x y f)) := by
  simp only [exec, execReadRsp, h, true_or, if_true]

theorem exec_fenceAck {s : State} {x y : Nat} {f : Flit} (h : f.type = .ack) :
    exec (.fenceAck x y f) s = .next (finish s (s.fenceAckAt x y f)) := by
  simp only [exec, execFenceAck, h, true_or, if_true]

/-! ## Writes -/

theorem State.sendOut_crosses {s : State} {x y : Nat} {o : Out} {f : Flit} (h : s.mayCross x y o f = true) :
    s.sendOut x y o f = s.fly x y o f := if_pos h

/-- A block that the router's tile takes (R195, R217). -/
theorem State.deliverBlock_tile {u : State} {x y t : Nat} {f : Flit} (hspace : f.space ≠ 1) (hpoison : f.poisoned = false)
    (ht : u.logicalAt x y = some t) (hmay : u.mayWrite x y f = true)
    (hsys : (f.lineList.any fun i => decide (0xFC00 ≤ f.line + i)) = false) :
    u.deliverBlock x y f = ((u.wakeTile t).updTile t fun z => z.store (f.lineList.map fun i =>
      ((f.line + i) * 64, fitBytes 64 ((f.data.drop (64 * i)).take 64)))).ackFence x y f := by
  have htakes : u.takesWrite x y f = true := by simp [State.takesWrite, hpoison, hspace, ht, hmay, hsys]
  simp only [State.deliverBlock, htakes, if_true, State.meshWrite, hpoison, hspace, ht, hmay, hsys, Bool.not_true, Bool.false_eq_true, if_false]

/-- A block of HBM that the router owns (R225, R226). -/
theorem State.deliverBlock_hbm {u : State} {x y p n : Nat} {e : Word} {f : Flit} (hspace : f.space = 1) (hpoison : f.poisoned = false)
    (hpage : u.pageAt f.addr = some (p, n, e)) (hp : p = f.part) (hpart : f.part ≠ 0) (howns : ownsHpa x y (writeBlock e f.addr) = true)
    (hheld : u.blockHeld e f.addr = true) : u.deliverBlock x y f = (u.hbmLines e f).ackFence x y f := by
  have htakes : u.takesWrite x y f = true := by simp [State.takesWrite, hpoison, hspace, hpage, hp, hpart, howns, hheld]
  simp only [State.deliverBlock, htakes, if_true, State.meshWrite, hpoison, hspace, hpage, Bool.false_eq_true, if_false]

theorem writeFlit_here {s u : State} {x y : Nat} {last : Out} {f : Flit} (hok : f.headerOk = true) (ha : Claim.arrives s x y last f)
    (hu : u = s.land x y f) (htype : f.type = .write) (hout : u.outOf last x y f = .here) :
    exec (.writeFlit x y f) s = .next (finish s (if f.toPort.isSome then u else u.deliverBlock x y f)) := by
  subst hu
  rw [exec_writeFlit htype, State.writeAt, State.arrive_of ha hok]
  simp only [hout]

theorem writeFlit_on {s u : State} {x y : Nat} {last o : Out} {f : Flit} (hok : f.headerOk = true) (ha : Claim.arrives s x y last f)
    (hu : u = s.land x y f) (htype : f.type = .write) (hout : u.outOf last x y f = o) (ho : o ≠ .here) :
    exec (.writeFlit x y f) s = .next (finish s (u.sendOut x y o f)) := by
  subst hu
  rw [exec_writeFlit htype, State.writeAt, State.arrive_of ha hok]
  cases o with
  | here => exact absurd rfl ho
  | _ => simp only [hout]

theorem writeFlits : Claim.writeFlits := by
  refine fun s u x y last f hok ha hu htype => ⟨fun t hout hport hspace hpoison ht hmay hsys => ?_,
    fun p n e hout hport hspace hpoison hpage hp hpart howns hheld => ?_, fun hout hport => ?_, fun o hout ho hcross => ?_⟩
  · rw [writeFlit_here hok ha hu htype hout, hport, State.deliverBlock_tile hspace hpoison ht hmay hsys]
    rfl
  · rw [writeFlit_here hok ha hu htype hout, hport, State.deliverBlock_hbm hspace hpoison hpage hp hpart howns hheld]
    rfl
  · rw [writeFlit_here hok ha hu htype hout, if_pos hport]
  · rw [writeFlit_on hok ha hu htype hout ho, State.sendOut_crosses hcross]

/-! ## Reads -/

theorem State.readAt_here {u : State} {last : Out} {x y : Nat} {f : Flit} (hlist : f.listOk = true)
    (hout : u.routeFrom last x y f.dstX f.dstY = .here) : u.readAt last x y f = u.answerRead x y f := by
  simp [State.readAt, hlist, hout]

/-- A request on its way joins a waiting one, or waits (R209). -/
theorem State.readAt_on {u : State} {last o : Out} {x y : Nat} {f : Flit} (hlist : f.listOk = true)
    (hout : u.routeFrom last x y f.dstX f.dstY = o) (ho : o ≠ .here) (hcross : u.mayCross x y o f = true) :
    u.readAt last x y f =
      match (if bit (u.router x y).ctrl.toNat 5 then mergeInto f.sent (u.router x y).waiting else none) with
      | some w => u.updRouter x y fun r => { r with waiting := w, merges := bump24 r.merges 1 }
      | none => u.updRouter x y fun r => { r with waiting := r.waiting ++ [f.sent] } := by
  unfold State.readAt
  cases o with
  | here => exact absurd rfl ho
  | _ => simp only [hlist, hout, hcross, Bool.not_true, Bool.false_eq_true, if_false] <;> rfl

theorem readReq_completes {s u : State} {x y : Nat} {last o : Out} {f : Flit} (hok : f.headerOk = true)
    (ha : Claim.arrives (s.leaveWaiting x y f) x y last f) (htype : f.type = .readReq) (hu : u = (s.leaveWaiting x y f).land x y f)
    (hlist : f.listOk = true) (hout : u.routeFrom last x y f.dstX f.dstY = o) :
    (o = .here → exec (.readReq x y f) s = .next (finish s (u.answerRead x y f))) ∧
    (o ≠ .here → u.mayCross x y o f = true →
      (∀ w, bit (u.router x y).ctrl.toNat 5 = true → mergeInto f.sent (u.router x y).waiting = some w → exec (.readReq x y f) s =
        .next (finish s (u.updRouter x y fun r => { r with waiting := w, merges := bump24 r.merges 1 }))) ∧
      ((bit (u.router x y).ctrl.toNat 5 = false ∨ mergeInto f.sent (u.router x y).waiting = none) → exec (.readReq x y f) s =
        .next (finish s (u.updRouter x y fun r => { r with waiting := r.waiting ++ [f.sent] })))) := by
  have e : exec (.readReq x y f) s = .next (finish s (u.readAt last x y f)) := by
    rw [exec_readReq htype, State.arrive_of ha hok, hu]
  rw [e]
  refine ⟨fun ho => ?_, fun ho hcross => ⟨fun w hbit hw => ?_, fun hno => ?_⟩⟩
  · rw [State.readAt_here hlist (hout.trans ho)]
  · rw [State.readAt_on hlist hout ho hcross, hbit, if_pos rfl, hw]
  · have hnone : (if bit (u.router x y).ctrl.toNat 5 then mergeInto f.sent (u.router x y).waiting else none) = none := by
      obtain h | h := hno <;> simp [h]
    rw [State.readAt_on hlist hout ho hcross, hnone]

theorem readRsp_on {s u : State} {x y : Nat} {last o : Out} {f : Flit} (hok : f.headerOk = true) (ha : Claim.arrives s x y last f)
    (hu : u = s.land x y f) (htype : f.type = .readRsp) (hout : u.routeFrom last x y f.dstX f.dstY = o) (ho : o ≠ .here) :
    exec (.readRsp x y f) s = .next (finish s (u.sendOut x y o f)) := by
  subst hu
  rw [exec_readRsp htype, State.responseAt, State.arrive_of ha hok]
  cases o with
  | here => exact absurd rfl ho
  | _ => simp only [hout]

theorem readRsp_here {s u : State} {x y : Nat} {last : Out} {f : Flit} (hok : f.headerOk = true) (ha : Claim.arrives s x y last f)
    (hu : u = s.land x y f) (htype : f.type = .readRsp) (hout : u.routeFrom last x y f.dstX f.dstY = .here)
    (htakes : u.takesWrite x y (u.received f) = true) :
    exec (.readRsp x y f) s = .next (finish s ((u.meshWrite x y (u.received f)).ackFence x y (u.received f))) := by
  subst hu
  rw [exec_readRsp htype, State.responseAt, State.arrive_of ha hok]
  simp only [hout, State.deliverBlock, htakes, if_true]

theorem fenceAck_here {s u : State} {x y t : Nat} {last : Out} {f : Flit} (hok : f.headerOk = true) (ha : Claim.arrives s x y last f)
    (hu : u = s.land x y f) (htype : f.type = .ack) (hout : u.routeFrom last x y f.dstX f.dstY = .here) (ht : u.logicalAt x y = some t)
    (howner : u.ownerOf t = f.part) (hpart : f.part ≠ 0) (hfrom : u.fenceFrom f.part t f.tag f.srcX f.srcY = true) :
    exec (.fenceAck x y f) s = .next (finish s (u.ferryAcked f.part t f.tag)) := by
  subst hu
  rw [exec_fenceAck htype, State.fenceAckAt, State.arrive_of ha hok]
  simp only [hout, ht, howner, hpart, hfrom, ne_eq, not_false_eq_true, and_self, if_true]

/-- Settles O18: each kind of flit arrives, and its output decides between the router's own answer and the way on. -/
theorem flitsComplete : Obligations.FlitsComplete := by
  refine ⟨writeFlits, fun s u x y last f hok => ⟨fun o ha htype hu hlist hout => readReq_completes hok ha htype hu hlist hout,
    fun ha hu => ⟨fun htype _ => ?_, fun htype hout htakes => readRsp_here hok ha hu htype hout htakes, fun o htype hout ho hcross => ?_,
      fun t htype hout ht howner hpart hfrom => fenceAck_here hok ha hu htype hout ht howner hpart hfrom⟩⟩⟩
  · rw [exec_rspList htype, State.arrive_of ha hok, hu]
  · rw [readRsp_on hok ha hu htype hout ho, State.sendOut_crosses hcross]

/-- A fence lets nothing but VC3 flits and ACKs pass (R217). -/
theorem State.mayCross_fence {u : State} {x y : Nat} {o : Out} {f : Flit} (hfence : u.isFence x y o = true) (hvc : f.vc ≠ 3)
    (htype : f.type ≠ .ack) : u.mayCross x y o f = false := by
  simp [State.mayCross, hfence, hvc, htype]

/-- Settles O19: a malformed header, a fence and a lost header each drop the flit. -/
theorem fencesDrop : Obligations.FencesDrop := by
  refine fun s u x y last o f htype hu => ⟨fun ha hbad => ?_, fun ha hok hout ho hfence hvc => ?_, fun hx hy hcame hhead => ?_⟩
  · rw [exec_writeFlit htype, State.writeAt, State.arrive_malformed ha hbad, hu]
    rfl
  · have hcross : u.mayCross x y o f = false := State.mayCross_fence hfence hvc (by rw [htype]; decide)
    rw [writeFlit_on hok ha hu htype hout ho, State.sendOut, hcross]
    rfl
  · rw [exec_writeFlit htype, State.writeAt, State.arrive_lost hx hy hcame hhead, hu]

/-- Settles O20: each queue's front entry leaves. -/
theorem routerQueuesComplete : Obligations.RouterQueuesComplete := by
  refine fun s x y => ⟨fun o c rest hc hfork => ?_, fun g rest hre => ?_⟩
  · refine exec_calm ?_ hc
    simp only [exec, execForkBuffer, hfork]
  · simp only [exec, execReissue, hre]

/-- Settles O21, by induction on the waiting requests: the first that qualifies takes the requesters. -/
theorem mergeKeepsRequesters : Obligations.MergeKeepsRequesters := by
  intro f l
  induction l with
  | nil => intro m h; cases h
  | cons w l ih =>
    intro m h
    unfold mergeInto at h
    split at h
    · rename_i hw
      cases h
      have hlen : w.reqs.length + f.reqs.length ≤ 16 := by
        simp only [Flit.merges, Bool.and_eq_true, decide_eq_true_eq] at hw
        exact hw.2
      exact ⟨rfl, [], l, w, rfl, hw, by simp, rfl, by simpa using hlen⟩
    · rename_i hw
      obtain ⟨r, hr, rfl⟩ := Option.map_eq_some_iff.mp h
      obtain ⟨hlen, pre, post, v, hl, hv, hpre, hm, hroom⟩ := ih r hr
      refine ⟨by simp [hlen], w :: pre, post, v, by simp [hl], hv, fun a ha => ?_, by simp [hm], hroom⟩
      obtain rfl | ha := List.mem_cons.mp ha
      · simpa using hw
      · exact hpre a ha

/-! ## Stitch links, the scrub and the router registers -/

theorem stitchCrc_completes {s : State} {n sent : Nat} {l : Stitch} (hn : n < 464) (hl : l = s.mesh.links.getD n {}) (hup : l.disabled = false) :
    exec (.stitchCrc n sent) s = .next (finish s
      (({ s with mesh := { s.mesh with links := s.mesh.links.set n { l with replays := l.replays + min sent 32 } } } : State).raise
        { det := 0x0403, loc := linkLoc n, place := n })) := by
  subst hl
  simp only [exec, execStitchCrc, Nat.not_le.mpr hn, hup, Bool.false_eq_true, or_self, if_false]

theorem stitchLane_completes {s : State} {n : Nat} {l : Stitch} (hn : n < 464) (hl : l = s.mesh.links.getD n {}) (hup : l.disabled = false) :
    exec (.stitchLane n) s = .next (finish s
      (({ s with mesh := { s.mesh with links := s.mesh.links.set n { l with lanes := l.lanes + 1, disabled := decide (2 ≤ l.lanes) } } } : State).raise
        { det := 0x0404, loc := linkLoc n, place := n })) := by
  subst hl
  simp only [exec, execStitchLane, Nat.not_le.mpr hn, hup, Bool.false_eq_true, or_self, if_false]

/-- Settles O22: links, scrub and counters. -/
theorem linksAndRegistersComplete : Obligations.LinksAndRegistersComplete := by
  refine fun s => ⟨fun n sent l => stitchCrc_completes, fun n l => stitchLane_completes, fun x y ecc hc hoff => ?_,
    fun x y u hx hy hon hu => ?_, fun x y hc => exec_calm rfl hc⟩
  · refine exec_calm ?_ hc
    simp only [exec, execSramScrub, hoff, or_true, if_true]
  · have hgo : ¬ (48 ≤ x ∨ 78 ≤ y ∨ s.unitsOff x y = true) := by simp [hon, hx, hy]
    subst hu
    refine ⟨fun hc => exec_calm ?_ hc, ?_, ?_⟩ <;> simp only [exec, execSramScrub, if_neg hgo]

end Sys2Proof.Machine
end

section
/-! PROOFS. Page walks, first touch, HBM requests, PTE changes and the HBM controllers (R227-R242). -/

namespace Sys2Proof.Machine

/-! ## Walks -/

/-- A slot's update leaves the TLB. -/
@[simp] theorem State.tlb_setSlot (s : State) (k n : Nat) (sl : Slot) (b : Bool) :
    ((s.setSlot k n sl b).tile k).ferry.tlb = (s.tile k).ferry.tlb := by
  simp only [State.setSlot, State.tile_updTile, TileState.setSlot]

/-- The walk that PAGE_WALK runs: that of the first page its slot's next request misses. -/
theorem exec_pageWalk {s : State} {k n v va : Nat} {wr : Bool} {x : Part} (hpart : s.part (s.ownerOf k) = some x)
    (hwants : ((s.tile k).slot n).wantsHbm = true)
    (hmiss : missing x (s.tile k).ferry.tlb ((s.tile k).slot n).pages = some (v, va, wr)) (ecc : Ecc) :
    exec (.pageWalk k n ecc) s = .next (finish s
      ((if ecc = .corrected then s.raise { det := 0x0501, part := 0 } else s).walk (s.ownerOf k) k n x v va ecc)) := by
  simp only [exec, execPageWalk, hpart, hwants, hmiss, Bool.not_true, Bool.false_eq_true, if_false]

theorem exec_lockRetry {s : State} {k n v va : Nat} {wr : Bool} {x : Part} (hpart : s.part (s.ownerOf k) = some x)
    (hrun : ((s.tile k).slot n).phase = .run) (hlocked : ((s.tile k).slot n).locked = true)
    (hmiss : missing x ((s.setSlot k n { (s.tile k).slot n with locked := false } false).tile k).ferry.tlb
      ({ (s.tile k).slot n with locked := false } : Slot).pages = some (v, va, wr)) :
    exec (.lockRetry k n) s = .next (finish s
      ((s.setSlot k n { (s.tile k).slot n with locked := false } false).walk (s.ownerOf k) k n x v va .clean)) := by
  simp only [exec, execLockRetry, hpart]
  rw [if_pos ⟨hrun, hlocked⟩, hmiss]

/-- Reads that cannot be corrected fault with code 6 (R229, R237). -/
theorem State.walk_failed (s : State) (p t n : Nat) (x : Part) (v va : Nat) :
    s.walk p t n x v va .failed =
      (s.raise { det := 0x0502, loc := { unit := siteOf (tableHpa x.tables 0) }, place := tableHpa x.tables 0 / 2 ^ 21 }).ferryFault
        p t n 6 va .dataLoss := by
  simp only [State.walk, if_true]
  rfl

/-- A level-1 entry that is not valid faults with code 1. -/
theorem State.walk_noLevel1 (s : State) (p t n : Nat) (x : Part) (v va : Nat) (hres : level1Reserved (x.level1.getD (v / 2 ^ 11) 0) = false)
    (hvalid : pteValid (x.level1.getD (v / 2 ^ 11) 0) = false) :
    s.walk p t n x v va .clean = s.ferryFault p t n 1 va .refused := by
  simp only [State.walk, reduceCtorEq, hres, hvalid, Bool.not_false, Bool.false_eq_true, if_true, if_false]
  rfl

section
variable {s : State} {p t n : Nat} {x : Part} {v va : Nat}
  (hres1 : level1Reserved (x.level1.getD (v / 2 ^ 11) 0) = false) (hvalid1 : pteValid (x.level1.getD (v / 2 ^ 11) 0) = true)
  (hres : pteReserved (x.pte v) = false) (hgood : (pteValid (x.pte v) && s.frameBad (x.pte v)) = false)

include hres1 hvalid1 hres hgood

/-- A walk that reaches a level-2 entry of a legal form follows its LOCK, VALID and first-touch bits (R238, R241, R242). -/
theorem State.walk_level2 :
    s.walk p t n x v va .clean =
      if pteLock (x.pte v) then s.setSlot t n { (s.tile t).slot n with locked := true } false
      else if pteValid (x.pte v) then
        s.updTile t fun y => { y with ferry := { y.ferry with tlb := tlbPut y.ferry.tlb v (x.pte v) } }
      else if pteTouch (x.pte v) then s.setSlot t n { (s.tile t).slot n with phase := .faultWait, faultCode := 1, faultVa := va } true
      else s.ferryFault p t n 1 va (faultStatus 1) := by
  simp only [State.walk, reduceCtorEq, hres1, hvalid1, hres, hgood, Bool.not_true, Bool.false_eq_true, or_self, if_false]

end

/-- Settles O23: PAGE_WALK and LOCK_RETRY run one walk, whose branches follow the entries it reads. -/
theorem pageWalkCompletes : Obligations.PageWalkCompletes := by
  unfold Obligations.PageWalkCompletes
  rintro s k n v va wr x sl rfl hpart
  refine ⟨?noLevel1, ?level1, ?retry⟩
  case noLevel1 =>
    rintro e1 rfl hres hvalid hwants hmiss
    rw [exec_pageWalk hpart hwants hmiss, if_neg (by decide), State.walk_noLevel1 _ _ _ _ _ _ _ hres hvalid]
  case level1 =>
    intro hwants hmiss hres1 hvalid1
    have run := exec_pageWalk hpart hwants hmiss
    have clean := (run .clean).trans (by rw [if_neg (by decide)])
    refine ⟨?valid, ?touch, ?locked, ?corrected, ?failed⟩
    case valid =>
      intro hc hres hlock hvalid hbad
      rw [State.walk_level2 hres1 hvalid1 hres (by simp [hbad]), hlock, hvalid] at clean
      exact exec_calm clean hc
    case touch =>
      intro hc hres hlock hvalid htouch
      rw [State.walk_level2 hres1 hvalid1 hres (by simp [hvalid]), hlock, hvalid, htouch] at clean
      exact exec_calm clean hc
    case locked =>
      intro hc hres hlock hgood
      rw [State.walk_level2 hres1 hvalid1 hres hgood, hlock] at clean
      exact exec_calm clean hc
    case corrected => rw [run, if_pos rfl]
    case failed => rw [run, if_neg (by decide), State.walk_failed]
  case retry =>
    intro hrun hlocked hmiss
    exact exec_lockRetry hpart hrun hlocked (by rw [State.tlb_setSlot]; exact hmiss)

/-! ## First touch -/

/-- Settles O24, along the page's entry and the reserve. -/
theorem firstTouchCompletes : Obligations.FirstTouchCompletes := by
  unfold Obligations.FirstTouchCompletes
  rintro s k n x sl rfl hpart hphase
  refine ⟨fun hvalid => ⟨?mapped, ?empty⟩, ?meanwhile⟩
  case mapped =>
    rintro f rest e u hreserve rfl rfl
    refine ⟨fun hgo => ?_, fun hgo => ?_⟩ <;>
      simp only [exec, execFirstTouch, hpart, hphase, hvalid, hreserve, hgo, ne_eq, not_true_eq_false, Bool.false_eq_true, if_true, if_false] <;> rfl
  case empty =>
    intro hreserve hgo
    simp only [exec, execFirstTouch, hpart, hphase, hvalid, hreserve, hgo, ne_eq, not_true_eq_false, Bool.false_eq_true, if_true, if_false]
    rfl
  case meanwhile =>
    intro hvalid hgo
    simp only [exec, execFirstTouch, hpart, hphase, hvalid, hgo, ne_eq, not_true_eq_false, if_true, if_false]

/-! ## Requests -/

/-- HBM_REQUEST serves a slot that asks for blocks, a receiver's once its message is there (R227, R303). -/
theorem exec_hbmRequest {s v : State} {k n : Nat} {ecc : Ecc} {x : Part}
    (hv : v = if ((s.tile k).slot n).desc.src = 3 then s.takeMessage (s.ownerOf k) k n else s) (hpart : v.part (s.ownerOf k) = some x)
    (hwants : ((v.tile k).slot n).wantsHbm = true) (hhold : x.hold ≠ .rest) (hstall : (v.tile k).ferryStalls ((v.tile k).slot n).desc = false) :
    exec (.hbmRequest k n ecc) s = .next (finish s (v.hbmServe (s.ownerOf k) k n x ecc)) := by
  simp only [exec, execHbmRequest, ← hv, hpart, hwants, hhold, hstall, ne_eq, not_false_eq_true, decide_true, Bool.not_false, Bool.and_self,
    if_true]

/-- The controller serves a request that neither misses nor faults: the blocks are accessed, then a sender sends and any other moves. -/
theorem State.hbmServe_of {v u r : State} {p k n : Nat} {ecc : Ecc} {x : Part}
    (hmiss : missing x (v.tile k).ferry.tlb ((v.tile k).slot n).pages = none)
    (hfault : x.hitFault (v.tile k).ferry.tlb ((v.tile k).slot n).pages = none)
    (hu : u = v.updTile k fun y => { y with ferry := { y.ferry with
      tlb := (usedEntries (v.tile k).ferry.tlb ((v.tile k).slot n).pages).foldl (fun l q => tlbPut l q.1 q.2.2.2) y.ferry.tlb } })
    (hr : u.accessAll p ecc (usedEntries (v.tile k).ferry.tlb ((v.tile k).slot n).pages) = (r, none)) :
    v.hbmServe p k n x ecc =
      let sl := (v.tile k).slot n
      let b := sl.desc.chunkEnd sl.cursor
      if sl.desc.dst = 3 then
        let q := r.setSlot k n { sl with fetched := b } false
        if b = sl.desc.total then (q.sendDescriptor p k n).portPoll p k n else q
      else (r.ferryMove p k n sl.cursor b).ferryProgress p k n b := by
  subst hu
  simp only [State.hbmServe, hmiss, hfault, hr]

/-- Settles O25: the request is served, and what follows is read off the destination and the chunk. -/
theorem hbmRequestCompletes : Obligations.HbmRequestCompletes := by
  unfold Obligations.HbmRequestCompletes
  rintro s v k n ecc x sl used u r p rfl hv rfl hpart hwants hhold hstall hmiss hfault rfl hu hr
  have run := exec_hbmRequest (ecc := ecc) hv hpart hwants hhold hstall
  rw [State.hbmServe_of hmiss hfault hu hr] at run
  exact ⟨fun hdst => run.trans (by simp only [if_neg hdst]), fun hdst hmore => run.trans (by simp only [if_pos hdst, if_neg hmore]),
    fun hdst hlast => run.trans (by simp only [if_pos hdst, if_pos hlast])⟩

/-! ## PTE changes -/

theorem State.updTiles_onlyTiles (s : State) (ts : List Nat) (f : TileState → TileState) :
    s.updTiles ts f = { s with tiles := (s.updTiles ts f).tiles } := by
  induction ts generalizing s with
  | nil => rfl
  | cons t ts ih => exact ih (s.updTile t f)

/-- Settles O26. -/
theorem pteChangeCompletes : Obligations.PteChangeCompletes := by
  unfold Obligations.PteChangeCompletes
  refine fun s => ⟨?change, ?acknowledged⟩
  case change =>
    rintro p vpn pte x u hpart hok hc rfl
    refine exec_calm (u := _) ?_ hc (by rw [State.updTiles_onlyTiles]; rfl) (by rw [State.updTiles_onlyTiles]; rfl)
      (by rw [State.updTiles_onlyTiles]; rfl) (by rw [State.updTiles_onlyTiles]; rfl) (by rw [State.updTiles_onlyTiles]; rfl)
      (by rw [State.updTiles_onlyTiles]; rfl)
    simp only [exec, execPteChange, hpart, hok, if_true]
    rfl
  case acknowledged =>
    intro k vpn hmem
    simp only [exec, execInvalidateAck, List.contains_iff_mem.mpr hmem, if_true]
    rfl

/-! ## Controllers -/

/-- Settles O27: the scrub's report follows what the read finds, and whether the stripe gives the block back. -/
theorem controllersComplete : Obligations.ControllersComplete := by
  unfold Obligations.ControllersComplete
  rintro s site st rfl
  refine ⟨fun temp hc hstack => ?refresh, fun u hpa hup hhpa hu => ?scrub⟩
  case refresh => exact exec_calm (by simp only [exec, execRefreshBank, hstack, if_true]) hc
  case scrub =>
    subst hu hhpa
    have hcommand := fun ecc => show exec (.patrolScrub site ecc) s = execPatrolScrub site ecc s from rfl
    refine ⟨fun hc => ?clean, ?corrected, fun hpar hlost => ?striped, fun hgone => ?poisoned⟩
    case clean => exact exec_calm (by simp only [hcommand, execPatrolScrub, hup, Bool.not_true, Bool.false_eq_true, if_false]) hc
    case corrected =>
      simp only [hcommand, execPatrolScrub, hup, Bool.not_true, Bool.false_eq_true, if_false]
      rfl
    case striped =>
      simp only [hcommand, execPatrolScrub, hup, hpar, hlost, Bool.not_true, Bool.not_false, Bool.false_eq_true, and_self, if_true, if_false]
    case poisoned =>
      simp only [hcommand, execPatrolScrub, hup, Bool.not_true, Bool.false_eq_true, if_false]
      rw [if_neg]
      rintro ⟨hpar, hkept⟩
      rcases hgone with h | h
      · exact absurd (h.symm.trans hpar) (by decide)
      · exact absurd (h.symm.trans ((Bool.not_eq_true' _).mp hkept)) (by decide)

end Sys2Proof.Machine
end

section
/-! PROOFS. Sessions of the mailboxes: requests served, HELLO, KEEPALIVE, BYE, the session timers, frames whose trailer does not verify (R317-R331,
R368). -/

namespace Sys2Proof.Machine

/-! ## Requests that are served -/

/-- A row of a request: its command hands the frame to a handler, which answers what the row names. -/
theorem served_of {c : VFrame → Instr} {op : Nat} {P : State → Req → Prop} {E : State → Req → State} (handle : Req → State → State)
    (hc : ∀ f s, exec (c f) s = .next (finish s (s.vorlaIn op f handle))) (hE : ∀ u r, P u r → handle r u = E u r) :
    Claim.served c op P E := by
  intro s f hs hP
  rw [hc, State.vorlaIn_served s op f handle hs, hE _ _ hP]

/-- Settles O28. -/
theorem requestsKeepTheRest : Obligations.RequestsKeepTheRest := by
  unfold Obligations.RequestsKeepTheRest
  exact ⟨fun s op f hs => State.taken_hostJournal s op f hs,
    fun s r st body => ⟨State.reply_hostOnly s r st body, fun _ hm => State.reply_other s r st body hm⟩⟩

/-- The frames that a closed mailbox keeps are JOB_DONE and EVENT (R323). -/
theorem Mailbox.close_waiting (b : Mailbox) : ∀ o ∈ b.close.waiting, o.opcode = 0x42 ∨ o.opcode = 0xF0 := by
  intro o ho
  have hkept : keptOpcode o.opcode = true := by
    rcases List.mem_append.mp ho with h | h
    · obtain ⟨v, hv, rfl⟩ := List.mem_map.mp h
      exact (List.mem_filter.mp hv).2
    · exact (List.mem_filter.mp h).2
  exact of_decide_eq_true hkept

/-- Settles O29: KEEPALIVE and BYE reach their handlers, and BYE's closes the mailbox. -/
theorem sessionFramesComplete : Obligations.SessionFramesComplete := by
  unfold Obligations.SessionFramesComplete
  refine ⟨served_of _ (fun _ _ => rfl) fun _ _ _ => rfl, fun s f hc hs => ?_⟩
  have e : exec (.byeFrame f) s = .next (finish s ((s.taken 0x04 f).updBox f.mailbox.toNat Mailbox.close)) := by
    show Host.Outcome.next (finish s (s.vorlaIn 0x04 f _)) = _
    rw [State.vorlaIn_served s 0x04 f _ hs]
    rfl
  have hend := finish_hostJournal s ((s.taken 0x04 f).updBox f.mailbox.toNat Mailbox.close) hc
    ((State.taken_hostJournal s 0x04 f hs).trans (State.updBox_hostOnly _ _ _).journal)
  refine ⟨_, e.trans (congrArg Host.Outcome.next hend), ?_⟩
  rw [State.box_updBox]
  exact ⟨rfl, rfl, rfl, rfl, rfl, Mailbox.close_waiting _⟩

/-! ## HELLO -/

theorem State.updBox_updBox (s : State) (m : Nat) (f g : Mailbox → Mailbox) :
    (s.updBox m f).updBox m g = s.updBox m fun b => g (f b) := by
  simp only [State.updBox, State.box, Tab.getD_set_same, Tab.set_set]

theorem State.putWire_updBox (s : State) (m : Nat) (f : Mailbox → Mailbox) (w : VWire) :
    (s.updBox m f).putWire w = (s.putWire w).updBox m f := rfl

/-- Sending one frame: the first that may go, where fewer than 64 are unacknowledged. -/
theorem State.pump_one {s : State} {m : Nat} {o : VOut} {rest : List VOut} (hfew : (s.box m).unacked.length < 64)
    (hfirst : takeFirst (s.box m).maySend (s.box m).waiting = some (o, rest)) :
    State.pump 1 s m = (s.putWire ((s.box m).wire m o)).updBox m fun b =>
      { b with waiting := rest, txNext := b.txNext + 1, unacked := b.unacked ++ [⟨(s.box m).wire m o, 2⟩], ackDue := false } := by
  simp only [State.pump, Nat.not_le.mpr hfew, if_false, hfirst]

/-- The mailbox of a session that HELLO opens, before FEATURES is sent (R326). -/
def Mailbox.opened (b : Mailbox) (f : VFrame) (agreed : Word) (features : List Byte) : Mailbox :=
  { b.close with live := true, hostMac := f.src, hostPort := f.port, rxNext := 1, epoch := nextEpoch b.epoch, agreed := agreed, kMac := b.kMac,
                 waiting := ⟨0x02, flagResp, f.tag, features, none⟩ :: b.close.waiting }

/-- FEATURES, the first frame of a session that HELLO opens. -/
def Mailbox.featuresWire (b : Mailbox) (f : VFrame) (agreed : Word) (features : List Byte) : VWire :=
  (b.opened f agreed features).wire f.mailbox.toNat ⟨0x02, flagResp, f.tag, features, none⟩

/-- The mailbox once FEATURES is sent: its key is destroyed (R327). -/
def Mailbox.greeted (b : Mailbox) (f : VFrame) (agreed : Word) (features : List Byte) : Mailbox :=
  { b.opened f agreed features with
    waiting := b.close.waiting, txNext := 1, unacked := [⟨b.featuresWire f agreed features, 2⟩], ackDue := false, kMac := none, kData := none }

/-- The bits of a session: those the host asks for that the panel has, of another version only the basic set (R326). -/
def State.agreedBits (s : State) (f : VFrame) : Word :=
  BitVec.ofNat 64 (beNat (f.payload.take 8)) &&& s.features &&& (if f.version.toNat / 16 = 1 then BitVec.allOnes 64 else basicFeatures)

/-- FEATURES is numbered 0, the first of its session (R322). -/
theorem Mailbox.featuresWire_seq (b : Mailbox) (f : VFrame) (agreed : Word) (features : List Byte) :
    (b.featuresWire f agreed features).seq = 0 := if_neg (show ¬ bit flagResp 3 = true by decide)

theorem State.helloIn_opens {s : State} {f : VFrame} (hfront : (s.vorlaFront 0x01 f).2 = true)
    (hfree : f.isNull = true → (s.box f.mailbox.toNat).live = false) (hadmin : f.mailbox.toNat ≠ 0 → (s.box 0).epoch ≠ 0)
    (hflags : f.flags &&& 0xAF = 0) (h5 : f.reserved5 = 0) (h26 : f.reserved26 = 0) (hepoch : f.epoch = 0)
    (hlen : f.payload.length = 16) (hzero : ∀ b ∈ f.payload.drop 8, b = 0)
    (hbits : BitVec.ofNat 64 (beNat (f.payload.take 8)) &&& ~~~definedFeatures = 0) (b : Mailbox) (hb : b = s.box f.mailbox.toNat)
    (features : List Byte) (hfeatures : features = s.featuresPayload (s.agreedBits f) (nextEpoch b.epoch)) :
    s.helloIn f = (s.putWire (b.featuresWire f (s.agreedBits f) features)).updBox f.mailbox.toNat
      fun _ => b.greeted f (s.agreedBits f) features := by
  subst hb hfeatures
  have hnull : (f.isNull && (s.box f.mailbox.toNat).live) = false := by
    cases h : f.isNull
    · rfl
    · exact hfree h
  have hfirst : ¬ (f.mailbox.toNat ≠ 0 ∧ (s.box 0).epoch = 0) := fun h => hadmin h.1 h.2
  have hform : (decide (f.flags &&& 0xAF ≠ 0) || decide (f.reserved5 ≠ 0) || decide (f.reserved26 ≠ 0) || decide (f.epoch ≠ 0) ||
      decide (f.payload.length ≠ 16) || decide ((f.payload.drop 8).any fun x => x ≠ 0) ||
      decide (BitVec.ofNat 64 (beNat (f.payload.take 8)) &&& ~~~definedFeatures ≠ 0)) = false := by
    simpa [h5, h26, hepoch, hlen, hbits] using ⟨hflags, hzero⟩
  simp only [State.helloIn, hfront, State.vorlaFront_hello s f hfront, hnull, if_neg hfirst, hform, Bool.not_true, Bool.false_eq_true, if_false]
  refine (congrArg (State.updBox · f.mailbox.toNat _) (congrArg (State.pump 1 · f.mailbox.toNat)
    (State.updBox_updBox _ _ _ _))).trans ?_
  rw [State.pump_one (by rw [State.box_updBox]; exact Nat.zero_lt_succ 63) (by rw [State.box_updBox]; rfl), State.putWire_updBox, State.updBox_updBox,
    State.updBox_updBox, State.box_updBox]
  rfl

/-- Settles O30. -/
theorem helloOpensSession : Obligations.HelloOpensSession := by
  unfold Obligations.HelloOpensSession
  intro s f hc hfront hfree hadmin hflags h5 h26 hepoch hlen hzero hbits
  have e : exec (.hello f) s = .next (finish s (s.helloIn f)) := rfl
  rw [State.helloIn_opens hfront hfree hadmin hflags h5 h26 hepoch hlen hzero hbits _ rfl _ rfl] at e
  refine ⟨_, _, exec_calm e hc, rfl, rfl, rfl, rfl, rfl, Mailbox.featuresWire_seq _ _ _ _, rfl, ?_⟩
  rw [State.box_updBox]
  exact ⟨rfl, rfl, rfl, rfl, rfl, rfl, rfl, fun m hm => State.box_updBox_other _ _ hm⟩

/-! ## Timers and links -/

theorem bit_unseq (n : Nat) : bit (0 ||| flagUnseq ||| flagAckv ||| n) 3 = true := by
  rw [bit, Nat.testBit_or, show (0 ||| flagUnseq ||| flagAckv).testBit 3 = true by decide, Bool.true_or]

/-- Settles O31: each timer, and the link, by the branch its hypotheses name. -/
theorem sessionTimersComplete : Obligations.SessionTimersComplete := by
  unfold Obligations.SessionTimersComplete Claim.sessionTimers
  refine ⟨fun s => ⟨?resend, ?acknowledge, ?expire, ?keepalive⟩, ?link⟩
  case resend =>
    intro m seq v hv
    simp only [exec, execVorlaRetx, hv]
    rfl
  case acknowledge =>
    intro m hc hlive hdue
    have e : exec (.ackDeadline m) s = .next (finish s (s.ackKeepalive m)) := by
      simp only [exec, execAckDeadline, hlive, hdue, Bool.and_self, if_true]
    refine ⟨_, _, exec_calm e hc, rfl, rfl, rfl, ?_, rfl, ?_⟩
    · exact bit_unseq _
    · rw [State.ackKeepalive, State.postUnseq, State.box_updBox]
  case expire =>
    intro m hc hlive
    exact exec_calm (by simp only [exec, execSessionExpiry, hlive, if_true]) hc
  case keepalive =>
    intro hc hup
    have e : exec .keepaliveSend s = .next (finish s { (s.keepOn 0).keepOn 1 with host :=
        { ((s.keepOn 0).keepOn 1).host with keepCount := ((s.keepOn 0).keepOn 1).host.keepCount + 1 } }) := by
      simp only [exec, execKeepaliveSend, hup, if_true]
    exact ⟨_, _, _, exec_calm e hc, rfl, rfl, rfl, rfl, rfl, rfl, rfl⟩
  case link =>
    rintro s port up retrained q u rfl hport hon hout rfl
    have hheard : (decide (port < 2) && !(s.host.ports.getD port {}).disabled && !s.power.inReset) = true := by
      simp [hport, hon, hout]
    refine ⟨fun hquiet hc => ?quiet, fun hlost => ?lost⟩
    case quiet => exact exec_calm (by simp only [exec, execHostLink, hheard, hquiet, if_true, Bool.false_eq_true, if_false]) hc
    case lost => simp only [exec, execHostLink, hheard, hlost, if_true]

/-! ## Trailers -/

/-- Settles O32: row 3 of Table 12-3 ends the frame before any handler. -/
theorem badTrailerRefused : Obligations.BadTrailerRefused := by
  unfold Obligations.BadTrailerRefused
  rintro s f op h port rfl hout hup hon hcommitted hstarting hmode haccepted hmagic hversion hbox htrailer
  have hfront : s.vorlaFront op f =
      ((s.raise { det := 0x0B01, loc := { die := 0x40, unit := f.port }, part := f.mailbox.toNat }).replyErrorNull f op .auth, false) := by
    simp [State.vorlaFront, hout, hup, hon, hcommitted, hstarting, hmode, haccepted, hmagic, hversion, hbox, htrailer]
  simp only [State.vorlaIn, hfront, Bool.not_false, if_true]

end Sys2Proof.Machine
end

section
/-! PROOFS. Loads, activation and bring-up (R361-R396). -/

namespace Sys2Proof.Machine

/-! ## Loads -/

theorem loadBeginReq_opens (u : State) (r : Req)
    (h : field r.payload 0 1 ≤ 2 ∧ r.payload.length = (if field r.payload 0 1 = 2 then 17 else 9) ∧
      (field r.payload 0 1 = 0 ↔ r.box = 0) ∧ u.trust.bootLocked = false ∧ (u.box r.box).openLoad = none ∧
      (field r.payload 0 1 = 0 → u.firm.phase = .idle ∧ u.firm.starting = false) ∧ (r.box ≠ 0 → (u.part r.box).isSome = true)) :
    State.loadBeginReq r u = (u.updBox r.box fun b =>
      { b with openLoad := some { target := field r.payload 0 1, length := field r.payload 1 8, va := field r.payload 9 8 } }).reply r .ok [] := by
  obtain ⟨htarget, hlen, hbox, hlocked, hnone, hidle, hpart⟩ := h
  have hform : ¬ (2 < field r.payload 0 1 ∨ r.payload.length ≠ (if field r.payload 0 1 = 2 then 17 else 9)) := by
    simp only [not_or, not_lt, ne_eq, not_not]
    exact ⟨htarget, hlen⟩
  have hfirm : ¬ (field r.payload 0 1 = 0 ∧ (u.firm.phase ≠ .idle ∨ u.firm.starting = true)) := by
    rintro ⟨h0, hbusy⟩
    simp [hidle h0] at hbusy
  have hthere : ¬ (field r.payload 0 1 ≠ 0 ∧ (u.part r.box).isNone = true) := by
    rintro ⟨h0, hnone⟩
    have := hpart fun hb => h0 (hbox.mpr hb)
    simp_all
  simp only [State.loadBeginReq, if_neg hform, hlocked, hnone, if_neg hfirm, if_neg hthere, Option.isSome_none, Bool.false_eq_true, if_false]

theorem loadChunkReq_keeps {l : OpenLoad} {data : List Byte} (u : State) (r : Req)
    (h : (u.box r.box).openLoad = some l ∧ u.trust.bootLocked = false ∧ 8 ≤ r.payload.length ∧
      (l.target = 0 → data = r.payload.drop 8) ∧ (l.target ≠ 0 → u.openData r (r.payload.drop 8) = some data) ∧
      field r.payload 0 8 + data.length ≤ l.length) :
    State.loadChunkReq r u = (u.updBox r.box fun b =>
      { b with openLoad := some { l with chunks := l.chunks.set (field r.payload 0 8) data } }).reply r .ok [] := by
  obtain ⟨hopen, hlocked, hlen, hplain, hsealed, hfits⟩ := h
  have hdata : (if l.target = 0 then some (r.payload.drop 8) else u.openData r (r.payload.drop 8)) = some data := by
    split
    case isTrue h0 => rw [hplain h0]
    case isFalse h0 => exact hsealed h0
  simp only [State.loadChunkReq, hopen, hlocked, Nat.not_lt.mpr hlen, hdata, Nat.not_lt.mpr hfits, Bool.false_eq_true, if_false]

theorem loadEndReq_installs {l : OpenLoad} (u : State) (r : Req)
    (h : (u.box r.box).openLoad = some l ∧ u.trust.bootLocked = false ∧ r.payload = [] ∧ (joinChunks 0 l.chunks).length = l.length) :
    State.loadEndReq r u =
      let x := (u.updBox r.box fun b => { b with openLoad := none }).loadInstall r.box l (joinChunks 0 l.chunks)
      x.2.reply r x.1 [] := by
  obtain ⟨hopen, hlocked, hempty, hwhole⟩ := h
  simp only [State.loadEndReq, hopen, hlocked, hempty, hwhole, ne_eq, not_true_eq_false, Bool.false_eq_true, if_false]

/-- A LOG_READ of a good form goes on to its LOG. -/
theorem logRead_form {r : Req} {n : Nat} (hn : n ≤ 2) (hlen : r.payload.length = 16) (hzero : zeroBytes r.payload 1 1 = true)
    (hmany : field r.payload 4 4 ≤ 16777216) :
    ¬ (r.payload.length ≠ 16 ∨ 2 < n ∨ (!zeroBytes r.payload 1 1) = true ∨ 16777216 < field r.payload 4 4) := by
  rw [hlen, hzero]
  simp only [ne_eq, not_true_eq_false, Bool.not_true, Bool.false_eq_true, false_or]
  omega

/-- Settles O33: each handler takes the branch that its row's hypotheses name. -/
theorem loadsComplete : Obligations.LoadsComplete := by
  unfold Obligations.LoadsComplete
  refine ⟨served_of _ (fun _ _ => rfl) loadBeginReq_opens, fun l data => served_of _ (fun _ _ => rfl) loadChunkReq_keeps,
    fun l => served_of _ (fun _ _ => rfl) loadEndReq_installs, fun s p l bs => ⟨?image, ?pages⟩,
    served_of _ (fun _ _ => rfl) ?plate, served_of _ (fun _ _ => rfl) ?rings, fun x => served_of _ (fun _ _ => rfl) ?memory⟩
  case image =>
    intro htarget hmode hidle hsmall
    simp only [State.loadInstall, htarget, hmode, hidle, Nat.not_lt.mpr hsmall, ne_eq, not_true_eq_false, if_true, if_false]
  case pages =>
    intro x htarget hpart hmapped
    simp only [State.loadInstall, htarget, State.loadPages, hpart, hmapped, if_true]
  case plate =>
    rintro u r ⟨hlen, hsrc, hzero, hmany, hbox⟩
    simp only [State.logReadReq, hsrc, if_neg (logRead_form (n := 0) (by decide) hlen hzero hmany)]
  case rings =>
    rintro u r ⟨hlen, hsrc, hzero, hmany, hbox, htile, hlow, hhigh⟩
    have hring : ¬ (field r.payload 8 8 < 0xFC00 ∨ 0xFE00 * 64 < field r.payload 8 8 * 64 + field r.payload 4 4) := by omega
    simp only [State.logReadReq, hsrc, if_neg (logRead_form (n := 1) (by decide) hlen hzero hmany), hbox, htile, if_neg hring, Bool.not_true,
      Bool.false_eq_true, or_self, if_false]
  case memory =>
    rintro u r ⟨hlen, hsrc, hzero, hmany, hpart, hplain, hmapped⟩
    simp only [State.logReadReq, hsrc, if_neg (logRead_form (n := 2) (by decide) hlen hzero hmany), hpart, hplain, hmapped, Option.isSome_none,
      Bool.not_true, Bool.false_eq_true, or_self, if_false]

/-! ## Activation -/

/-- Settles O34: the handlers of an activation, and the commands that move it on, by their branches. -/
theorem activationCompletes : Obligations.ActivationCompletes := by
  unfold Obligations.ActivationCompletes
  refine ⟨fun g st => served_of _ (fun _ _ => rfl) ?stage, fun g => served_of _ (fun _ _ => rfl) ?activate,
    served_of _ (fun _ _ => rfl) ?cancel, fun s _ => rfl, fun s reason hwaiting => ?abort,
    fun s g u v hstaged hwaiting hmay hfresh hu hv => ?commit, fun s g old u hstaged himage hcommitted hu => ⟨?runs, ?restarts⟩⟩
  case stage =>
    rintro u r ⟨hlen, hzero, hidle, rfl, rfl⟩
    have hform : ¬ (r.payload.length ≠ 8 ∨ (!zeroBytes r.payload 4 4) = true) := by simp [hlen, hzero]
    have hshort : (u.firm.stagedBytes.take (field r.payload 0 4)).length < field r.payload 0 4 ↔
        u.firm.stagedBytes.length < field r.payload 0 4 := by
      rw [List.length_take]
      omega
    simp only [State.fwStage, if_neg hform, hidle, ne_eq, not_true_eq_false, if_false, hshort]
    by_cases hfew : u.firm.stagedBytes.length < field r.payload 0 4
    · simp only [if_pos hfew, reduceCtorEq, if_false]
    · by_cases hcheck : u.checkImage (u.firm.stagedBytes.take (field r.payload 0 4)) = .ok
      · rcases himage : u.firm.image with _ | run
        · simp only [if_neg hfew, hcheck, if_true, not_true_eq_false, if_false, Option.any_none, Bool.false_eq_true]
        · simp only [if_neg hfew, hcheck, if_true, not_true_eq_false, if_false, Option.any_some, decide_eq_true_eq]
      · simp only [if_neg hfew, hcheck, not_false_eq_true, if_true, if_false]
  case activate =>
    rintro u r ⟨hlen, hflags, hzero, hdeadline, hstaged, hdigest, hidle, hcalm⟩
    have hbit : bit 0 0 = false := rfl
    simp [State.fwActivateReq, hlen, hflags, hzero, hdeadline, hstaged, hdigest, hidle, hcalm, hbit]
  case cancel =>
    rintro u r ⟨hlen, hflags, hzero, hdeadline, hwaiting⟩
    have hbit : bit 1 0 = true := rfl
    simp [State.fwActivateReq, hlen, hflags, hzero, hdeadline, hwaiting, hbit]
  case abort =>
    simp only [State.actAbort, hwaiting, if_true, State.actReply]
    cases s.firm.image <;> rfl
  case commit =>
    subst hu hv
    simp only [exec, execCommitPoint, hstaged, hwaiting, hmay, hfresh, decide_true, Bool.not_false, Bool.and_self, if_true]
  case runs =>
    subst hu
    simp only [exec, execHandover, hstaged, himage, hcommitted, ne_eq, not_true_eq_false, if_true, if_false]
  case restarts =>
    simp only [exec, execHandover, hstaged, hcommitted, ne_eq, not_true_eq_false, Bool.false_eq_true, if_false]

/-! ## Bring-up -/

theorem State.mgtRestart_recovery (s : State) (det : Nat) :
    (s.mgtRestart det).firm.mode = .recovery ∧ (s.mgtRestart det).firm.phase = .idle ∧ (s.mgtRestart det).firm.starting = false :=
  ⟨rfl, rfl, rfl⟩

/-- A register that is not worn takes a write, its WCOUNT rises, and the others stay (R394). -/
theorem State.pregWrite_fresh (s : State) (n : Nat) (v : Word) (h : (s.preg n).worn = false) :
    (s.pregWrite n v).preg n = { value := v, wcount := (s.preg n).wcount + 1 } ∧ (∀ m, m ≠ n → (s.pregWrite n v).preg m = s.preg m) ∧
      s.pregWrite n v = { s with firm := { s.firm with pregs := (s.pregWrite n v).firm.pregs } } := by
  have hfresh : ¬ 100000 ≤ (s.preg n).wcount.toNat := of_decide_eq_false h
  simp only [State.pregWrite, if_neg hfresh]
  exact ⟨Tab.getD_set_same _ _ _ _, fun m hm => Tab.getD_set_other _ _ _ hm, trivial⟩

theorem State.pregWrite_worn (s : State) (n : Nat) (v : Word) (h : (s.preg n).worn = true) : s.pregWrite n v = s :=
  if_pos (of_decide_eq_true h)

/-- A register of which one copy fails its check is rewritten from the other (R488). -/
theorem State.almCheck_rewrites (s : State) (n : Nat) (h : ((s.preg n).bad0 ^^ (s.preg n).bad1) = true) :
    s.almCheck n =
      ({ s with firm := { s.firm with pregs := s.firm.pregs.set n { value := (s.preg n).value, wcount := (s.preg n).wcount } } } : State).raise
        { det := 0x0D11, loc := { die := 0x40, unit := n } } := by
  have hone : ((s.preg n).bad0 && (s.preg n).bad1) = false ∧ ((s.preg n).bad0 || (s.preg n).bad1) = true := by
    revert h
    cases (s.preg n).bad0 <;> cases (s.preg n).bad1 <;> decide
  simp only [State.almCheck, hone, Bool.false_eq_true, if_true, if_false]

/-- Settles O35. -/
theorem bringUpCompletes : Obligations.BringUpCompletes := by
  unfold Obligations.BringUpCompletes
  refine ⟨fun s g himage hstarting => ⟨?warm, ?cold⟩, fun s cause hup => ?watchdog, State.mgtRestart_recovery, fun s die hthere => ?fault,
    fun s g die himage hdown hrest => ⟨fun hc => ?reload, fun n u hn hu => ?reloadFails⟩, fun s hc hfull => ?mirror,
    served_of _ (fun _ _ => rfl) ?read, served_of _ (fun _ _ => rfl) ?write, fun s whole hdue => ?plan, State.pregWrite_fresh,
    State.pregWrite_worn, State.almCheck_rewrites⟩
  case warm =>
    rintro ⟨hmode, hstewards⟩
    have hsome : s.firm.stewards.isEmpty = false := by simpa using hstewards
    simp only [exec, execModeRunReached, himage, hstarting, hmode, hsome, Bool.not_true, Bool.false_eq_true, if_true, if_false]
  case cold =>
    rintro (hmode | hnone)
    · simp only [exec, execModeRunReached, himage, hstarting, hmode, Bool.not_true, Bool.false_eq_true, if_false]
    · simp only [exec, execModeRunReached, himage, hstarting, hnone, List.isEmpty_nil, Bool.not_true, Bool.false_eq_true, if_true, if_false,
        ite_self]
  case watchdog => simp only [exec, execDrtWatchdog, if_pos hup]
  case fault => simp only [exec, execStewardFault, hthere, if_true]
  case reload =>
    refine exec_calm ?_ hc
    simp only [exec, execStewardReload, himage, hdown, hrest, Bool.and_self, if_true, State.loadStewards, List.foldl_cons, List.foldl_nil]
  case reloadFails =>
    subst hn hu
    simp only [exec, execStewardReload, himage, hdown, hrest, Bool.and_self, Bool.false_eq_true, if_true, if_false, Bool.and_eq_true,
      decide_eq_true_eq]
  case mirror => exact exec_calm (by simp only [exec, execPlateMirror, hfull, if_true]) hc
  case read =>
    rintro u r ⟨hlen, hsome, hrange⟩
    have hform : ¬ (r.payload.length ≠ 4 ∨ field r.payload 2 2 = 0 ∨ 512 < field r.payload 0 2 + field r.payload 2 2) := by omega
    simp only [State.persistReadReq, if_neg hform]
  case write =>
    rintro u r ⟨hlen, hzero, howner, hfresh, hcount⟩
    have hform : ¬ (r.payload.length ≠ 16 ∨ (!zeroBytes r.payload 2 2) = true) := by simp [hlen, hzero]
    simp only [State.persistWriteReq, if_neg hform, howner, hfresh, hcount, ne_eq, not_true_eq_false, Bool.false_eq_true, if_false]
  case plan => simp only [exec, execPlanWrite, hdue, if_true]

end Sys2Proof.Machine
end

section
/-! PROOFS. Key exchanges, attestation and key rotation (R399-R418). -/

namespace Sys2Proof.Machine

/-! ## Key exchanges -/

theorem State.withEntropy_run {s : State} (r : Req) (serve : State → State) (h : s.ent.state = .run) : s.withEntropy r serve = serve s := by
  simp only [State.withEntropy, h]

/-- SESSION_OPEN goes by its OP (Table 14-9). -/
theorem State.sessionOpen_op {u : State} {r : Req} {n : Nat} (hlen : 4 ≤ r.payload.length) (hop : field r.payload 0 1 = n)
    (hzero : zeroBytes r.payload 1 3 = true) :
    (n = 0 → State.sessionOpen r u = u.mbxOffer r) ∧ (n = 1 → State.sessionOpen r u = u.mbxFinish r) ∧
    (n = 2 → State.sessionOpen r u = u.linkOffer r) ∧ (n = 3 → State.sessionOpen r u = u.linkAccept r) ∧
    (n = 4 → State.sessionOpen r u = u.linkFinish r) ∧ (n = 5 → State.sessionOpen r u = u.linkDrop r) := by
  have hform : ¬ (r.payload.length < 4 ∨ (!zeroBytes r.payload 1 3) = true) := by
    rw [hzero]
    simpa using hlen
  refine ⟨?_, ?_, ?_, ?_, ?_, ?_⟩ <;> rintro rfl <;> simp only [State.sessionOpen, if_neg hform, hop]

theorem four_le_of_drop {bs : List Byte} {n : Nat} (h : (bs.drop 4).length = n + 1) : 4 ≤ bs.length := by
  rw [List.length_drop] at h
  omega

/-- Settles O36: each form of SESSION_OPEN, with entropy flowing where it draws. -/
theorem keyExchangesComplete : Obligations.KeyExchangesComplete := by
  unfold Obligations.KeyExchangesComplete
  refine ⟨served_of _ (fun _ _ => rfl) ?mbxOffer, fun o ok ct key kd t2 => served_of _ (fun _ _ => rfl) ?mbxFinish,
    served_of _ (fun _ _ => rfl) ?linkOffer, fun ok m => served_of _ (fun _ _ => rfl) ?linkAccept,
    fun ok m o => served_of _ (fun _ _ => rfl) ?linkFinish, served_of _ (fun _ _ => rfl) ?linkDrop, fun s m hc => exec_calm rfl hc,
    fun s peer epoch ss o a => Tab.find_set_same _ _ _⟩
  case mbxOffer =>
    rintro u r ⟨hlen, hop, hzero, hid, hrun⟩
    rw [(State.sessionOpen_op (by omega) hop hzero).1 rfl, State.mbxOffer, if_neg (not_not.mpr hlen),
      if_neg (by simpa using hid), State.withEntropy_run _ _ hrun]
    simp only [State.drawFresh, State.updBox_trust, State.bootEpoch, State.preg]
  case mbxFinish =>
    rintro u r ⟨hlen, hop, hzero, hoffer, hsess, rfl, rfl, rfl, rfl, rfl⟩
    obtain ⟨-, he, -⟩ := State.sessionOpen_op (u := u) (by omega : 4 ≤ r.payload.length) hop hzero
    rw [he rfl]
    simp only [State.mbxFinish, hlen, hoffer, hsess, ne_eq, not_true_eq_false, if_false, ← Bool.not_and, Bool.not_eq_true',
      ← Bool.not_eq_true, ite_not]
  case linkOffer =>
    rintro u r ⟨hbox, hlen, hop, hzero, hpad, hid, hrun⟩
    obtain ⟨-, -, he, -⟩ := State.sessionOpen_op (u := u) (by omega : 4 ≤ r.payload.length) hop hzero
    rw [he rfl, State.linkOffer, if_neg (not_not.mpr hbox), if_neg (by simp [hlen, hpad]), if_neg (by simpa using hid),
      State.withEntropy_run _ _ hrun]
  case linkAccept =>
    rintro u r ⟨hbox, hop, hzero, rfl, hlen, hkind, hpad, hid, hroom, hrun, rfl⟩
    obtain ⟨-, -, -, he, -⟩ := State.sessionOpen_op (u := u) (four_le_of_drop hlen) hop hzero
    have hform : ¬ ((r.payload.drop 4).length ≠ 7616 ∨ field (r.payload.drop 4) 9 1 ≠ 0 ∨ (!zeroBytes (r.payload.drop 4) 10 6) = true) := by
      simp only [hlen, hkind, hpad]
      decide
    have hsome : u.trust.identity.isNone = false := by simpa [Option.isSome_iff_ne_none] using hid
    rw [he rfl]
    simp only [State.linkAccept, if_neg (not_not.mpr hbox), if_neg hform, hsome, hroom, State.withEntropy_run _ _ hrun, Bool.not_true,
      Bool.false_eq_true, if_false]
    by_cases hverify : u.linkVerify [] (r.payload.drop 4) = true
    · simp only [hverify, Bool.not_true, Bool.false_eq_true, if_true, if_false]
    · simp only [hverify, Bool.not_false, Bool.false_eq_true, if_true, if_false]
  case linkFinish =>
    rintro u r ⟨hbox, hop, hzero, rfl, hlen, hkind, hpad, hoffer, hroom, rfl⟩
    obtain ⟨-, -, -, -, he, -⟩ := State.sessionOpen_op (u := u) (four_le_of_drop hlen) hop hzero
    rw [he rfl]
    simp only [State.linkFinish, hbox, hlen, hkind, hpad, hoffer, hroom, ne_eq, not_true_eq_false, Bool.not_true, Bool.false_eq_true, or_self,
      if_false, Bool.not_eq_true', ← Bool.not_eq_true, ite_not]
  case linkDrop =>
    rintro u r ⟨hbox, hlen, hop, hzero, hpad, hlink⟩
    obtain ⟨-, -, -, -, -, he⟩ := State.sessionOpen_op (u := u) (by omega : 4 ≤ r.payload.length) hop hzero
    have hform : ¬ (r.payload.length < 6 ∨ (!zeroBytes r.payload 6 2) = true) := by simp [hlen, hpad]
    rw [he rfl]
    simp only [State.linkDrop, hbox, if_neg hform, hlink, ne_eq, not_true_eq_false, Bool.not_true, Bool.false_eq_true, if_false]

/-! ## Attestation -/

theorem bit_bnat (b : Bool) : bit (bnat b) 0 = b := by cases b <;> rfl

/-- The form of an ATTEST that R404 accepts. -/
structure AttestForm (u : State) (r : Req) (op scope p : Nat) (withKey : Bool) : Prop where
  long : 36 ≤ r.payload.length
  exact : op ≠ 2 → r.payload.length = 36
  opIs : field r.payload 0 1 = op
  known : op ≤ 2
  scopeIs : field r.payload 1 1 = scope
  partIs : field r.payload 2 1 = p
  flagsAre : field r.payload 3 1 = bnat withKey
  admin : r.box = 0 → (scope = 0 ∧ p = 0) ∨ (scope = 1 ∧ 1 ≤ p ∧ p ≤ 64)
  tenant : r.box ≠ 0 → scope = 1 ∧ p = r.box
  key : withKey = true → scope = 1 ∧ u.releaseMode p = true ∧ op = 0
  there : scope = 1 → u.part p ≠ none

/-- An ATTEST of that form goes by its OP. -/
theorem State.attest_op {u : State} {r : Req} {op scope p : Nat} {withKey : Bool} (h : AttestForm u r op scope p withKey) :
    (op = 0 → State.attest r u = u.quote r scope p withKey) ∧
    (op = 1 → State.attest r u = if u.trust.cert.isEmpty then u.reply r .notReady [] else u.reply r .ok (fitBytes 4720 u.trust.cert)) ∧
    (op = 2 → State.attest r u = u.lifecycleToken r) := by
  obtain ⟨hlong, hexact, hop, hknown, hscope, hpart, hflags, hadmin, htenant, hkey, hthere⟩ := h
  have hscopeOk : (if r.box = 0 then (decide (scope = 0 ∧ p = 0) || decide (scope = 1 ∧ 1 ≤ p ∧ p ≤ 64)) else decide (scope = 1 ∧ p = r.box)) =
      true := by
    split
    case isTrue h0 => simpa using hadmin h0
    case isFalse h0 => exact decide_eq_true (htenant h0)
  have hform : ¬ (r.payload.length < 36 ∨ (op ≠ 2 ∧ r.payload.length ≠ 36) ∨ 2 < op ∨ 2 ≤ bnat withKey ∨
      (!(if r.box = 0 then (decide (scope = 0 ∧ p = 0) || decide (scope = 1 ∧ 1 ≤ p ∧ p ≤ 64)) else decide (scope = 1 ∧ p = r.box))) = true ∨
      (withKey && (decide (scope ≠ 1) || !(u.releaseMode p) || decide (op ≠ 0))) = true) := by
    rw [hscopeOk]
    have hbit : bnat withKey < 2 := by cases withKey <;> decide
    have hwith : (withKey && (decide (scope ≠ 1) || !(u.releaseMode p) || decide (op ≠ 0))) = false := by
      cases withKey
      · rfl
      · obtain ⟨h1, h2, h3⟩ := hkey rfl
        simp [h1, h2, h3]
    rw [hwith]
    simp only [Bool.not_true, Bool.false_eq_true, or_false, not_or, not_and, not_not, not_lt, not_le]
    exact ⟨hlong, hexact, hknown, hbit⟩
  have hpresent : ¬ (scope = 1 ∧ (u.part p).isNone = true) := fun h => hthere h.1 (Option.isNone_iff_eq_none.mp h.2)
  refine ⟨?_, ?_, ?_⟩ <;> rintro rfl <;>
    simp only [State.attest, hop, hscope, hpart, hflags, bit_bnat, if_neg hform, if_neg hpresent]

/-- Settles O37. -/
theorem attestationCompletes : Obligations.AttestationCompletes := by
  unfold Obligations.AttestationCompletes
  refine ⟨fun scope p withKey => served_of _ (fun _ _ => rfl) ?quote, fun scope p => served_of _ (fun _ _ => rfl) ?certs,
    fun ok tok => served_of _ (fun _ _ => rfl) ?token, fun s hc => ?port, fun s part hc => exec_calm rfl hc⟩
  case quote =>
    rintro u r ⟨hlen, hop, hscope, hpart, hflags, hadmin, htenant, hkey, hthere, hid, hrun⟩
    have form : AttestForm u r 0 scope p withKey := ⟨by omega, fun _ => hlen, hop, by decide, hscope, hpart, hflags, hadmin, htenant,
      fun h => ⟨(hkey h).1, (hkey h).2, rfl⟩, hthere⟩
    rw [(State.attest_op form).1 rfl, State.quote, if_neg (by simpa using hid), State.withEntropy_run _ _ hrun]
    rfl
  case certs =>
    rintro u r ⟨hlen, hop, hscope, hpart, hflags, hadmin, htenant, hthere, hcert⟩
    have form : AttestForm u r 1 scope p false := ⟨by omega, fun _ => hlen, hop, by decide, hscope, hpart, hflags, hadmin, htenant,
      fun h => absurd h (by decide), hthere⟩
    rw [(State.attest_op form).2.1 rfl, if_neg (by simpa using hcert)]
  case token =>
    rintro u r ⟨hbox, hlen, hop, hscope, hpart, hflags, rfl, htok, hpad, hstep, hgeom, rfl⟩
    have form : AttestForm u r 2 0 0 false := ⟨hlen, fun h => absurd rfl h, hop, by decide, hscope, hpart, hflags, fun _ => .inl ⟨rfl, rfl⟩,
      fun h => absurd hbox h, fun h => absurd h (by decide), fun h => absurd h (by decide)⟩
    rw [(State.attest_op form).2.2 rfl]
    have hform : ¬ ((r.payload.drop 36).length ≠ 3173 ∨ (!zeroBytes (r.payload.drop 36) 2 2) = true) := by simp only [htok, hpad]; decide
    simp only [State.lifecycleToken, hbox, if_neg hform, hstep, hgeom, State.tokenOk]
    by_cases hsigned : u.tokenSigned (r.payload.drop 36) = true
    · by_cases hfresh : u.tokenFresh (r.payload.drop 36) = true
      · simp [hsigned, hfresh]
      · simp [hsigned, hfresh]
    · simp [hsigned]
  case port =>
    refine ⟨exec_calm rfl hc, exec_calm rfl hc, fun op hlocked hop => ?locked, fun image hopen => ?firmware, fun cert hblank hgeom hrun => ?provision,
      fun kd hdev hgeom => ?toField, fun hlife hgeom => ?scrap⟩
    case locked =>
      have hclosed : (decide (s.lifeCycle ≠ 2) && decide (s.lifeCycle ≠ 4)) = false := by
        rcases hlocked with h | h <;> simp [h]
      have hfixed : ¬ (s.lifeCycle = 1 ∨ s.lifeCycle = 3) := by omega
      have e : exec (.testAccessPort op) s = .next (finish s s) := by
        cases op with
        | idcode => exact absurd rfl hop
        | bypass => rfl
        | firmware image => simp only [exec, execTestAccessPort, if_neg hfixed]
        | provision cert => simp only [exec, execTestAccessPort, hclosed, Bool.false_and, Bool.false_eq_true, if_false]
        | toField kd => simp only [exec, execTestAccessPort, hclosed, Bool.false_and, Bool.false_eq_true, if_false]
        | scrap => simp only [exec, execTestAccessPort, hclosed, Bool.false_and, Bool.false_eq_true, if_false]
      exact exec_calm e hc
    case firmware => exact exec_calm (by simp only [exec, execTestAccessPort, if_pos hopen]) hc
    case provision => simp [exec, execTestAccessPort, hblank, hgeom, hrun, hc.up, lifeStep]
    case toField => simp [exec, execTestAccessPort, hdev, hgeom, hc.up, lifeStep]
    case scrap => rcases hlife with h | h | h <;> simp [exec, execTestAccessPort, h, hgeom, hc.up, lifeStep]

/-! ## Key rotation and weights -/

/-- Settles O38. -/
theorem keyRotationCompletes : Obligations.KeyRotationCompletes := by
  unfold Obligations.KeyRotationCompletes
  refine ⟨fun x => served_of _ (fun _ _ => rfl) ?rotate, fun s part q hq htodo => ⟨fun now u hnow hu => ?batch, ?fault⟩,
    fun s part q hq htodo hflights => ?done, fun x g blk k wk src n dst => ⟨served_of _ (fun _ _ => rfl) ?release, served_of _ (fun _ _ => rfl) ?sealed⟩⟩
  case rotate =>
    rintro u r ⟨hlen, hzero, hnone, hrun, hpart⟩
    have hform : ¬ (r.payload.length ≠ 8 ∨ (!zeroBytes r.payload 0 8) = true) := by simp [hlen, hzero]
    simp only [State.keyRotate, if_neg hform, hnone, State.withEntropy_run _ _ hrun, hpart, Bool.false_eq_true, if_false]
  case batch =>
    subst hnow hu
    have hmore : q.todo.isEmpty = false := by simpa using htodo
    simp only [exec, execSweepBatch, hq, hmore, Bool.false_eq_true, if_false, if_true]
    cases s.part part <;> rfl
  case fault =>
    have hmore : q.todo.isEmpty = false := by simpa using htodo
    simp only [exec, execSweepBatch, hq, hmore, Bool.false_eq_true, if_false]
  case done => simp only [exec, execRotationDone, hq, htodo, hflights, List.isEmpty_nil, decide_true, Bool.and_self, if_true]
  case release =>
    rintro u r ⟨hpart, hidle, hprog, rfl, rfl, rfl, hwhole, rfl, hapart, hsrc, hdst, hmode, hlen, hkey, rfl⟩
    simp only [State.weightBind, hpart, hmode, hlen, hwhole, hidle, hprog, hapart, hsrc, hdst, hkey, if_true, ne_eq, not_true_eq_false, or_self,
      if_false, Option.isSome_none, Bool.false_eq_true, Bool.not_true, Bool.or_self]
    cases unwrapKey (Config.kemDecaps k.1 ((r.payload.drop 40).take 1568)) (r.payload.take 16) k.2 ((r.payload.drop 40).drop 1568) <;> rfl
  case sealed =>
    rintro u r ⟨hpart, hidle, hprog, rfl, rfl, rfl, hwhole, rfl, hapart, hsrc, hdst, hmode, hlen, hkey, hkd, hfamily, rfl⟩
    simp only [State.weightBind, hpart, hmode, hlen, hwhole, hidle, hprog, hapart, hsrc, hdst, hkey, hkd, hfamily, ne_eq, not_true_eq_false, or_self,
      if_false, Option.isSome_none, Bool.false_eq_true, Bool.not_true, Bool.or_self]
    cases unwrapKey (Config.kemDecaps k.2 (((r.payload.drop 40).drop 64).take 1568)) (r.payload.take 16) g.family ((r.payload.drop 40).drop 1632) <;> rfl

end Sys2Proof.Machine
end

section
/-! PROOFS. Partitions and jobs (R28, R29, R333-R347). -/

namespace Sys2Proof.Machine

/-! ## PART_CREATE -/

/-- A permitted PART_CREATE whose frames are there builds the partition and answers (R334). -/
theorem State.partCreateReq_builds {u v w : State} {r : Req} {c : CreateReq} {fs gs : List Nat} (hc : c = CreateReq.of r.payload)
    (hform : c.wellFormed r.payload u.fuses.rows = true) (hok : u.createRefused c = false) (hroom : u.geom.length < 64)
    (hrun : u.ent.state = .run) (hpages : State.takeFrames (bit c.flags 0) c.rect.part (c.pages + c.touch) 0 u = some (fs, v))
    (htables : State.takeFrames false 0 (tableFrames c.vaLimit) 0 v = some (gs, w)) :
    State.partCreateReq r u =
      (u.buildPart c fs gs w.hbm w.drawKeyPair.2.ent w.drawKeyPair.1).reply r .ok (beBytes 4 c.rect.census) := by
  subst hc
  simp only [State.partCreateReq, hform, Nat.not_le.mpr hroom, hok, State.withEntropy_run _ _ hrun, Bool.not_true, Bool.false_eq_true, if_false]
  rw [State.createPart_of _ _ _ _ (State.createFrames_of _ _ _ _ _ _ hpages htables)]

/-- Settles O39: the request builds the partition, its reply changes mailboxes alone, and the command's end adds nothing. -/
theorem partCreateCompletes : Obligations.PartCreateCompletes := by
  unfold Obligations.PartCreateCompletes
  intro s f c fs gs u v w hc hs hu hof hform hok hroom hrun hpages htables
  have hjournal : u = { s with host := u.host, journal := u.journal } := hu ▸ State.taken_hostJournal s 0x30 f hs
  have hfuses : u.fuses = s.fuses := by rw [hjournal]
  have hgeom : u.geom = s.geom := by rw [hjournal]
  let x := u.buildPart c fs gs w.hbm w.drawKeyPair.2.ent w.drawKeyPair.1
  have hreply : x.reply (f.request 0x30) .ok (beBytes 4 c.rect.census) =
      { x with host := (x.reply (f.request 0x30) .ok (beBytes 4 c.rect.census)).host } := State.reply_hostOnly _ _ _ _
  have e : exec (.partCreate f) s = .next (finishGeom s (x.reply (f.request 0x30) .ok (beBytes 4 c.rect.census))) := by
    show Host.Outcome.next (finishGeom s (s.vorlaIn 0x30 f _)) = _
    rw [State.vorlaIn_served s 0x30 f _ hs, ← hu, State.partCreateReq_builds hof (hfuses ▸ hform) hok (hgeom ▸ hroom) hrun hpages htables]
  have hquiet : x.err = s.err ∧ x.resetReq = s.resetReq ∧ x.power = s.power ∧ x.firm = s.firm ∧ x.geom = s.geom ++ [c.rect] ∧
      x.tiles = c.rect.tiles.foldl (fun t i => t.erase i) s.tiles ∧ ∀ p, p ≠ c.rect.part → x.part p = s.part p := by
    refine ⟨?_, ?_, ?_, ?_, ?_, ?_, fun p hp => ?_⟩
    case refine_7 => exact (Tab.find_set_other u.parts _ hp).trans (by rw [hjournal]; rfl)
    all_goals
      show _ = _
      simp only [x, State.buildPart]
      rw [hjournal]
  obtain ⟨herr, hreset, hpower, hfirm, hg, htiles, hothers⟩ := hquiet
  rw [hreply, finishGeom_quiet _ _ (by rw [← hc.due, ← herr]) (by rw [← hc.reset, ← hreset]) (by rw [← hc.up, ← hpower])] at e
  exact ⟨_, _, e, hg, Tab.find_set_same _ _ _, rfl, rfl, rfl, rfl, rfl, rfl, rfl, rfl, rfl, rfl, rfl, hothers, htiles, herr, hpower, hfirm, rfl, rfl⟩

/-! ## PART_DESTROY -/

theorem Tab.find_erase_same {α : Type} (t : Tab α) (k : Nat) : (t.erase k).find k = none := by
  induction t with
  | nil => rfl
  | cons e t ih =>
    by_cases h : e.1 = k
    · simpa [Tab.erase, h] using ih
    · simpa [Tab.erase, Tab.find, h] using ih

theorem Tab.find_erase_none {α : Type} {t : Tab α} {k : Nat} (h : t.find k = none) (j : Nat) : (t.erase j).find k = none := by
  induction t with
  | nil => rfl
  | cons e t ih =>
    have hk : e.1 ≠ k := fun he => by simp [Tab.find, he] at h
    have ht : Tab.find t k = none := by simpa [Tab.find, hk] using h
    by_cases hj : e.1 = j
    · simpa [Tab.erase, hj] using ih ht
    · simpa [Tab.erase, Tab.find, hj, hk] using ih ht

/-- Keys erased one after another have no entry. -/
theorem Tab.find_foldl_erase {α : Type} (l : List Nat) (t : Tab α) {k : Nat} (h : k ∈ l ∨ t.find k = none) :
    (l.foldl (fun t i => t.erase i) t).find k = none := by
  induction l generalizing t with
  | nil => exact h.resolve_left (by simp)
  | cons i l ih =>
    refine ih (t.erase i) ?_
    rcases h with hmem | hnone
    · rcases List.mem_cons.mp hmem with rfl | hl
      · exact .inr (Tab.find_erase_same t k)
      · exact .inl hl
    · exact .inr (Tab.find_erase_none hnone i)

/-- Frames given back change the HBM state alone. -/
theorem State.freePages_hbm (l : Tab Word) (s : State) :
    l.foldl (fun (s : State) (e : Nat × Word) => s.freeFrames (ptePar e.2) [pteFrame e.2]) s =
      { s with hbm := (l.foldl (fun (s : State) (e : Nat × Word) => s.freeFrames (ptePar e.2) [pteFrame e.2]) s).hbm } := by
  induction l generalizing s with
  | nil => rfl
  | cons e l ih => exact ih (s.freeFrames (ptePar e.2) [pteFrame e.2])

/-- A wipe erases the partition and its tiles (R335). -/
theorem State.wipePart_erases {s : State} {p : Nat} {x : Part} (h : s.part p = some x) :
    (s.wipePart p).parts = s.parts.erase p ∧ (s.wipePart p).tiles = (s.tilesOf p).foldl (fun t i => t.erase i) s.tiles := by
  simp only [State.wipePart, h]
  rw [State.freePages_hbm]
  cases x.program with
  | none => exact ⟨rfl, rfl⟩
  | some g => exact ⟨rfl, rfl⟩

theorem State.wipePart_blank (s : State) (p : Nat) :
    (s.wipePart p).part p = none ∧ ∀ i ∈ s.tilesOf p, s.part p ≠ none → (s.wipePart p).tile i = TileState.blank := by
  rcases hp : s.part p with _ | x
  · have hsame : s.wipePart p = s := by simp only [State.wipePart, hp]
    exact ⟨by rw [hsame, hp], fun _ _ h => absurd rfl h⟩
  · obtain ⟨hparts, htiles⟩ := State.wipePart_erases hp
    refine ⟨?_, fun i hi _ => ?_⟩
    · rw [State.part, hparts, Tab.find_erase_same]
    · rw [State.tile, htiles, Tab.getD, Tab.find_foldl_erase _ _ (.inl hi), Option.getD_none]

/-- Settles O40: each handler takes the branch that its row's hypotheses name. -/
theorem partitionRequestsComplete : Obligations.PartitionRequestsComplete := by
  unfold Obligations.PartitionRequestsComplete
  refine ⟨?destroy, State.wipePart_blank, fun q => served_of _ (fun _ _ => rfl) ?query, served_of _ (fun _ _ => rfl) ?panel,
    served_of _ (fun _ _ => rfl) ?trace, fun x => served_of _ (fun _ _ => rfl) ?pair, fun x => served_of _ (fun _ _ => rfl) ?unpair⟩
  case destroy =>
    rintro s f p u v r hs rfl hlen hp hlow hhigh rfl hhas rfl
    have hform : ¬ (f.payload.length ≠ 1 ∨ p = 0 ∨ 64 < p) := by omega
    show Host.Outcome.next (finishGeom s (s.vorlaIn 0x31 f _)) = _
    rw [State.vorlaIn_served s 0x31 f _ hs]
    simp only [State.partDestroyReq, VFrame.request, hp, if_neg hform, hhas, Bool.not_true, Bool.false_eq_true, if_false]
  case query =>
    rintro u r ⟨hempty, hbox, hrect⟩
    simp only [State.partQueryReq, hempty, hbox, hrect, ne_eq, not_true_eq_false, not_false_eq_true, if_true, if_false]
  case panel =>
    rintro u r ⟨hempty, hbox⟩
    simp only [State.partQueryReq, hempty, hbox, ne_eq, not_true_eq_false, if_false]
  case trace =>
    rintro u r ⟨hlen, hlevel, hzero⟩
    have hform : ¬ (r.payload.length ≠ 8 ∨ 2 < field r.payload 0 1 ∨ (!zeroBytes r.payload 1 3) = true) := by
      rw [hzero]
      simp only [Bool.not_true, Bool.false_eq_true, or_false]
      omega
    simp only [State.traceSetReq, if_neg hform]
  case pair =>
    rintro u r ⟨hpart, hlen, hself, hun, hzero, hpeer1, hpeer64, hother, hlag1, hlag16, htimeout, hidle, hsingle, hthere⟩
    have hform : ¬ (r.payload.length ≠ 16 ∨ field r.payload 0 1 ≠ r.box ∨ 1 < 0 ∨ (!zeroBytes r.payload 12 4) = true) := by
      simp [hlen, hself, hzero]
    have hrange : ¬ (field r.payload 1 1 = 0 ∨ 64 < field r.payload 1 1 ∨
        (field r.payload 2 2 = u.panel ∧ field r.payload 1 1 = field r.payload 0 1) ∨ field r.payload 8 1 = 0 ∨ 16 < field r.payload 8 1 ∨
          field r.payload 10 2 = 0) := by
      rintro (h | h | h | h | h | h)
      case inr.inr.inl => exact hother h.1 h.2
      all_goals omega
    simp only [State.lockstepReq, hpart, hun, if_neg hform, if_neg hrange, hidle, hsingle, hthere, Option.isSome_none, Bool.false_eq_true, or_self,
      if_false, zero_ne_one]
  case unpair =>
    rintro u r ⟨hpart, hlen, hself, hun, hzero1, hzero10, hzero12, hidle⟩
    have hform : ¬ (r.payload.length ≠ 16 ∨ field r.payload 0 1 ≠ r.box ∨ 1 < 1 ∨ (!zeroBytes r.payload 12 4) = true) := by
      simp [hlen, hself, hzero12]
    simp only [State.lockstepReq, hpart, hun, if_neg hform, hzero1, hzero10, hidle, Option.isSome_none, Bool.not_true, Bool.false_eq_true, or_self,
      if_true, if_false]

/-! ## Jobs -/

theorem State.updBox_congr {s : State} {m : Nat} {f g : Mailbox → Mailbox} (h : f (s.box m) = g (s.box m)) : s.updBox m f = s.updBox m g := by
  simp only [State.updBox, h]

/-- The one frame of a request is all of it (R319). -/
theorem State.gather_single {u : State} {r : Req} (hpartials : (u.box r.box).partials = []) (hmore : bit r.flags 5 = false) (bs : List Byte) :
    u.gather r bs = (some bs, u.updBox r.box fun b => { b with partials := [] }) := by
  simp only [State.gather, hpartials, hmore, List.find?_nil, List.nil_append, Bool.false_eq_true, if_false, Prod.mk.injEq, true_and]
  exact State.updBox_congr (by simp only [hpartials, List.filter_nil, List.append_nil])

/-- The first of several frames is kept (R337). -/
theorem State.gather_first {u : State} {r : Req} (hpartials : (u.box r.box).partials = []) (hmore : bit r.flags 5 = true) (bs : List Byte) :
    u.gather r bs = (none, u.updBox r.box fun b => { b with partials := [⟨r.tag, r.opcode, bs⟩] }) := by
  simp only [State.gather, hpartials, hmore, List.find?_nil, List.nil_append, if_true, Prod.mk.injEq, true_and]
  exact State.updBox_congr (by simp only [hpartials, List.filter_nil, List.nil_append])

/-- A row of a request whose handler reads the opcode. -/
theorem served_of_opcode {c : VFrame → Instr} {op : Nat} {P : State → Req → Prop} {E : State → Req → State} (handle : Req → State → State)
    (hc : ∀ f s, exec (c f) s = .next (finish s (s.vorlaIn op f handle))) (hE : ∀ u r, r.opcode = op → P u r → handle r u = E u r) :
    Claim.served c op P E := by
  intro s f hs hP
  rw [hc, State.vorlaIn_served s op f handle hs, hE _ _ rfl hP]

end Sys2Proof.Machine
end

section
/-! PROOFS. Jobs and checkpoints (R337-R350). -/

namespace Sys2Proof.Machine

/-! ## JOB_SUBMIT -/

/-- The journal entry of a JOB_SUBMIT (R339). -/
def Submit.entry (j : Submit) (r : Req) (id : BitVec 32) (seed : Nat) (q : Rect) (x : Part) : Job :=
  { id := id, part := r.box, state := 0, flags := j.flags, key := j.key, start := BitVec.ofNat 64 j.start, stop := BitVec.ofNat 64 j.stop,
    seed := seed, image := j.image, inPlace := j.inPlace, panels := j.panels, mpj := BitVec.ofNat 32 j.mpj, panelList := j.list, rect := q,
    pflags := x.flags, share := x.share }

theorem State.acceptJob_of {u : State} {r : Req} {j : Submit} {x : Part} {q : Rect} (hpart : u.part r.box = some x)
    (hrect : u.rect r.box = some q) (seed : Nat) :
    u.acceptJob r j seed =
      ({ u with journal := { u.journal with jobs := u.journal.jobs ++ [j.entry r u.journal.nextId seed q x], nextId := u.journal.nextId + 1 } } :
        State).reply r .ok (acceptedBody u.journal.nextId false seed) := by
  simp only [State.acceptJob, hpart, hrect, Submit.entry]

/-- What R338 asks of a JOB_SUBMIT that is journaled. -/
structure SubmitOk (u : State) (r : Req) (b : List Byte) (x : Part) (g : Program) (j : Submit) : Prop where
  part : u.part r.box = some x
  payload : j = Submit.of b u.panel
  fresh : u.journal.duplicate r.box (field b 0 8) = none
  form : j.bad b u.panel = false
  allowed : u.submitRefused r.box x j = false
  program : x.program = some g
  chains : g.chainMismatch (bit j.flags 1) = false
  feature : bit j.flags 4 = true → (u.box r.box).agreed.getLsbD 19 = true
  room : (u.journal.jobs.filter fun e => decide (e.part = r.box)).length < 64
  ids : u.journal.nextId.toNat < 0xFFFFFFFE

/-- Such a JOB_SUBMIT is journaled with its own seed, or with one drawn from Headwater once entropy flows (R339). -/
theorem State.submitAll_of {u : State} {r : Req} {b : List Byte} {x : Part} {g : Program} {j : Submit} (h : SubmitOk u r b x g j)
    (hrun : bit j.flags 0 = true → u.ent.state = .run) :
    u.submitAll r b =
      if bit j.flags 0 = true then (u.drawPlain 16).2.acceptJob { r with opcode := 0x41 } j (beNat (u.drawPlain 16).1)
      else u.acceptJob { r with opcode := 0x41 } j j.seed := by
  obtain ⟨hpart, rfl, hfresh, hform, hallowed, hprog, hchains, hfeature, hroom, hids⟩ := h
  have hagreed : (bit (Submit.of b u.panel).flags 4 && !((u.box r.box).agreed.getLsbD 19)) = false := by
    cases hmulti : bit (Submit.of b u.panel).flags 4
    · rfl
    · simpa using hfeature hmulti
  have hlimit : ¬ (64 ≤ (u.journal.jobs.filter fun e => decide (e.part = r.box)).length ∨ 0xFFFFFFFE ≤ u.journal.nextId.toNat) := by omega
  simp only [State.submitAll, hpart, hfresh, hform, hallowed, hprog, Option.map_some, Option.getD_some, hchains, hagreed, if_neg hlimit,
    Bool.false_eq_true, if_false]
  split
  case isTrue hseed => exact State.withEntropy_run _ _ (hrun hseed)
  case isFalse => rfl

theorem State.jobSubmitReq_single {u : State} {r : Req} (hmore : bit r.flags 5 = false) (hpartials : (u.box r.box).partials = [])
    (hlen : r.payload.length ≤ 4096 + 131072) :
    State.jobSubmitReq r u = (u.updBox r.box fun b => { b with partials := [] }).submitAll r r.payload := by
  simp only [State.jobSubmitReq, State.gather_single hpartials hmore, Nat.not_lt.mpr hlen, if_false]

/-! ## Jobs -/

/-- Settles O41. -/
theorem jobsComplete : Obligations.JobsComplete := by
  unfold Obligations.JobsComplete
  refine ⟨fun x g j q => served_of _ (fun _ _ => rfl) ?submit, served_of_opcode _ (fun _ _ => rfl) ?first,
    fun s p x g j r hpart hmay hnext hprog himage => ?start, fun s p x r hpart hrun hgo hdone => ?done,
    fun x j => served_of _ (fun _ _ => rfl) ?cancelQueued, fun x j => served_of _ (fun _ _ => rfl) ?cancelRunning,
    fun x => served_of _ (fun _ _ => rfl) ?preempt, fun x => served_of _ (fun _ _ => rfl) ?preemptRest,
    fun x => served_of _ (fun _ _ => rfl) ?preemptIdle, fun s p x tag why pages hpart hhold hready => ?atRest,
    fun x => served_of _ (fun _ _ => rfl) ?resume, served_of _ (fun _ _ => rfl) ?query⟩
  case submit =>
    rintro u r ⟨hmore, hpartials, hlen, hpart, hrect, hj, hfresh, hform, hallowed, hprog, hchains, hfeature, hroom, hids, hrun⟩
    have hok : SubmitOk (u.updBox r.box fun b => { b with partials := [] }) r r.payload x g j :=
      ⟨hpart, hj, hfresh, hform, hallowed, hprog, hchains, fun h => by rw [State.box_updBox]; exact hfeature h, hroom, hids⟩
    rw [State.jobSubmitReq_single hmore hpartials hlen, State.submitAll_of hok hrun]
    by_cases hseed : bit j.flags 0 = true
    · simp only [if_pos hseed]
      exact State.acceptJob_of (r := { r with opcode := 0x41 }) (x := x) (q := q) (by exact hpart) (by exact hrect) _
    · simp only [if_neg hseed]
      exact State.acceptJob_of (r := { r with opcode := 0x41 }) (x := x) (q := q) (by exact hpart) (by exact hrect) _
  case first =>
    rintro u r hop ⟨hmore, hpartials⟩
    simp only [State.jobSubmitReq, State.gather_first hpartials hmore, hop]
  case start => simp only [exec, execJobStart, State.startNext, hpart, hmay, hnext, hprog, himage, Bool.not_true, Bool.false_eq_true, ne_eq,
      not_true_eq_false, if_false]
  case done =>
    have hall : (s.tilesOf p).all (fun t => (s.tile t).finished) = true := List.all_eq_true.mpr hdone
    simp only [exec, execJobDone, State.jobDone, hpart, hrun, hgo, hall, Bool.and_self, if_true]
  case cancelQueued =>
    rintro u r ⟨hlen, hpart, hjob, hmine, hqueued⟩
    have hnot : j.state ≠ 2 := by omega
    simp only [State.jobCancelReq, hlen, hpart, hjob, hmine, if_neg hnot, if_pos hqueued, ne_eq, not_true_eq_false, if_false]
  case cancelRunning =>
    rintro u r ⟨hlen, hpart, hjob, hmine, hstate, hrun, hfree⟩
    have hsome : x.run.isNone = false := by simpa [Option.isSome_iff_ne_none] using hrun
    simp only [State.jobCancelReq, hlen, hpart, hjob, hmine, hstate, hsome, hfree, ne_eq, not_true_eq_false, if_false, one_ne_zero,
      OfNat.one_ne_ofNat, or_self, Bool.false_eq_true]
  case preempt =>
    rintro u r ⟨hempty, hpart, hfree, hrun, hhold⟩
    have hsome : x.run.isNone = false := by simpa [Option.isSome_iff_ne_none] using hrun
    simp only [State.preemptReq, hempty, hpart, hfree, hsome, hhold, ne_eq, not_true_eq_false, if_false, Bool.false_eq_true, reduceCtorEq]
  case preemptRest =>
    rintro u r ⟨hempty, hpart, hfree, hhold⟩
    simp only [State.preemptReq, hempty, hpart, hfree, hhold, ne_eq, not_true_eq_false, if_false, Bool.false_eq_true, if_true]
  case preemptIdle =>
    rintro u r ⟨hempty, hpart, hfree, hhold, hrun⟩
    simp only [State.preemptReq, hempty, hpart, hfree, if_neg hhold, hrun, ne_eq, not_true_eq_false, if_false, Bool.false_eq_true,
      Option.isNone_none, if_true]
  case atRest =>
    simp only [exec, execAtRest, State.atRest, hpart, hhold, hready, if_true]
  case resume =>
    rintro u r ⟨hempty, hpart, hfree, hhold⟩
    have hsame : (if x.run.isSome = true then u.updTiles (u.tilesOf r.box) TileState.resumed else u) =
        if x.run = none then u else u.updTiles (u.tilesOf r.box) TileState.resumed := by
      cases x.run <;> rfl
    simp only [State.resumeReq, hempty, hpart, hfree, hhold, hsame, ne_eq, not_true_eq_false, if_false, Bool.false_eq_true, State.goOn]
  case query =>
    rintro u r ⟨hlen, hrange, hmine⟩
    have hform : ¬ (r.payload.length ≠ 1 ∨ 64 < field r.payload 0 1) := by omega
    have hown : ¬ (r.box ≠ 0 ∧ field r.payload 0 1 ≠ r.box) := fun h => h.2 (hmine h.1)
    simp only [State.journalReq, if_neg hform, if_neg hown]

/-! ## Checkpoints -/

/-- The form of a CKPT_SAVE that R348 accepts. -/
theorem ckptSave_form {r : Req} {form : Nat} (hform : form ≤ 1) (hlen : r.payload.length = 2) (hflags : field r.payload 1 1 ≤ 1) :
    ¬ (r.payload.length ≠ 2 ∨ 1 < form ∨ 1 < field r.payload 1 1) := by omega

theorem State.restoreAll_of {s : State} {r : Req} {x : Part} {b : List Byte} {v : Restore} {force : Bool} (hpart : s.part r.box = some x)
    (hforce : field b 0 1 = bnat force) (hread : readStream (b.drop 1) = some v) :
    s.restoreAll r b =
      if (b.drop 1).drop ((b.drop 1).length - 16) = s.ckptSeal r.box ((b.drop 1).take ((b.drop 1).length - 16)) then
        (if s.restoreStatus r.box x v force = .ok ∨ s.restoreStatus r.box x v force = .shapeChanged then
          (if s.sectionsOk r.box v = true then
            (s.restoreApply r.box v (s.restoreStatus r.box x v force) force).reply r (s.restoreStatus r.box x v force) []
          else s.reply r .badFormat [])
        else s.reply r (s.restoreStatus r.box x v force) [])
      else s.reply r .auth [] := by
  have hone : ¬ 1 < bnat force := by cases force <;> decide
  have hflag : decide (bnat force = 1) = force := by cases force <;> decide
  simp only [State.restoreAll, hpart, hread, hforce, if_neg hone, hflag, ne_eq, ite_not, Bool.not_eq_true', ← Bool.not_eq_true]

/-- Settles O42. -/
theorem checkpointsComplete : Obligations.CheckpointsComplete := by
  unfold Obligations.CheckpointsComplete
  refine ⟨fun x => served_of _ (fun _ _ => rfl) ?stops, fun x => served_of _ (fun _ _ => rfl) ?sends,
    fun x => served_of _ (fun _ _ => rfl) ?portable, fun x d => served_of _ (fun _ _ => rfl) ?restore,
    fun s r x b v force st hpart hforce hread hst => hst ▸ State.restoreAll_of hpart hforce hread⟩
  case stops =>
    rintro u r ⟨hlen, hkind, hflags, hpart, hplain, hfree, hrun, hhold⟩
    have hsome : x.run.isSome = true := Option.isSome_iff_ne_none.mpr hrun
    simp only [State.ckptSaveReq, hpart, hkind, if_neg (ckptSave_form (Nat.zero_le 1) hlen hflags), hplain, hfree, hsome, hhold, Option.isSome_none,
      Bool.false_eq_true, zero_ne_one, and_self, if_true, if_false]
  case sends =>
    rintro u r ⟨hlen, hkind, hflags, hpart, hplain, hfree, hrest, himage⟩
    have hstill : ¬ (x.run.isSome = true ∧ x.hold = .free) := by
      rintro ⟨hsome, hhold⟩
      rcases hrest with h | h
      · simp [h] at hsome
      · simp [h] at hhold
    simp only [State.ckptSaveReq, hpart, hkind, if_neg (ckptSave_form (Nat.zero_le 1) hlen hflags), hplain, hfree, if_neg hstill, himage,
      Option.isSome_none, Bool.false_eq_true, zero_ne_one, if_false]
  case portable =>
    rintro u r ⟨hlen, hkind, hflags, hpart, hplain, hfree, hportable, hrun, hhold⟩
    have hnone : x.run.isNone = false := by simpa [Option.isSome_iff_ne_none] using hrun
    simp only [State.ckptSaveReq, hpart, hkind, if_neg (ckptSave_form (Nat.le_refl 1) hlen hflags), hplain, hfree, hportable, hhold, hnone,
      Option.isSome_none, Bool.not_true, Bool.false_eq_true, reduceCtorEq, and_false, or_self, if_true, if_false]
  case restore =>
    rintro u r ⟨hpart, hpartials, hfree, hrest, hdata⟩
    have hstill : ¬ (x.run.isSome = true ∧ x.hold ≠ .rest) := by
      rintro ⟨hsome, hhold⟩
      rcases hrest with h | h
      · simp [h] at hsome
      · exact hhold h
    simp only [State.ckptRestoreReq, hpart, hpartials, hfree, hdata, List.any_nil, Bool.not_false, Bool.false_eq_true, hstill,
      or_self, and_false, false_and, if_false]
    rcases u.gather r d with ⟨_ | bytes, t⟩ <;> rfl

end Sys2Proof.Machine
end

section
/-! PROOFS. ERR_READ, INJECT, SELFTEST and CALIBRATE (R366, R464-R468, R480, R489-R492). -/

namespace Sys2Proof.Machine

/-! ## ERR_READ -/

/-- FLAGS of an ERR_READ are for the admin mailbox alone (R480). -/
theorem errRead_flags {r : Req} (h : r.box ≠ 0 → field r.payload 1 1 = 0) : ¬ (r.box ≠ 0 ∧ field r.payload 1 1 ≠ 0) := fun k => k.2 (h k.1)

theorem State.errRead_records {u : State} {r : Req} (hlen : r.payload.length = 16) (hkind : field r.payload 0 1 = 0)
    (hflags : field r.payload 1 1 < 4) (hlow : 1 ≤ field r.payload 2 2) (hhigh : field r.payload 2 2 ≤ 120) (hzero : field r.payload 13 1 = 0)
    (hown : r.box ≠ 0 → field r.payload 1 1 = 0) :
    State.errRead r u = u.errRecords r (field r.payload 1 1) (field r.payload 2 2) (BitVec.ofNat 32 (field r.payload 4 4)) := by
  have hform : ¬ (r.payload.length ≠ 16 ∨ 1 < 0 ∨ 4 ≤ field r.payload 1 1 ∨ field r.payload 13 1 ≠ 0) := by omega
  have hmany : ¬ (field r.payload 2 2 = 0 ∨ 120 < field r.payload 2 2) := by omega
  simp only [State.errRead, hkind, if_neg hform, if_true, if_neg hmany, if_neg (errRead_flags hown)]

theorem State.errRead_instance {u : State} {r : Req} (hlen : r.payload.length = 16) (hkind : field r.payload 0 1 = 1)
    (hflags : field r.payload 1 1 < 4) (hnone : field r.payload 2 2 = 0) (hzero : field r.payload 13 1 = 0)
    (hown : r.box ≠ 0 → field r.payload 1 1 = 0) (hknown : detKnown (field r.payload 8 2) = true)
    (hthere : u.locOk (field r.payload 8 2) (locField r.payload 10 14) = true) :
    State.errRead r u = u.errInst r (field r.payload 8 2) (locField r.payload 10 14) := by
  have hform : ¬ (r.payload.length ≠ 16 ∨ 1 < 1 ∨ 4 ≤ field r.payload 1 1 ∨ field r.payload 13 1 ≠ 0) := by omega
  have hplace : ¬ (field r.payload 2 2 ≠ 0 ∨ (!detKnown (field r.payload 8 2)) = true ∨
      (!u.locOk (field r.payload 8 2) (locField r.payload 10 14)) = true) := by simp [hnone, hknown, hthere]
  simp only [State.errRead, hkind, if_neg hform, one_ne_zero, if_false, if_neg hplace, if_neg (errRead_flags hown)]

/-! ## INJECT -/

/-- An injection that arms its points (R489): its mode is ONCE or COUNT, and what R489 asks of it holds. -/
structure InjectOk (u : State) (r : Req) (mode det n period : Nat) (l : Loc) (wide : Bool) : Prop where
  length : r.payload.length = 24
  modeIs : field r.payload 2 1 = mode
  armed : mode ≠ 2
  known : mode ≤ 2
  flags : field r.payload 3 1 < 8
  zero7 : field r.payload 7 1 = 0
  zero10 : field r.payload 10 2 = 0
  zero20 : field r.payload 20 4 = 0
  count : n = field r.payload 12 4
  interval : period = field r.payload 16 4
  detector : det = field r.payload 0 2
  place : l = locField r.payload 4 8
  scope : bit (field r.payload 3 1) 1 = wide
  there : (detKnown det && if wide then u.fuses.hasDie l.die && (!(detOnTile det) || decide (l.die < 24)) else u.locOk det l) = true
  once : mode = 0 → n = 0 ∧ period = 0
  counted : mode = 1 → n ≠ 0 ∧ period ≠ 0
  room : u.err.injections.length < 16
  alive : u.lifeCycle ≠ 4
  resets : detResets det = true → bit (field r.payload 3 1) 2 = true

/-- The injection it arms. -/
def injectionOf (u : State) (r : Req) (mode det n period : Nat) (locs : List Loc) : Injection :=
  { id := u.err.nextInj, det := det, locs := locs, noRepair := bit (field r.payload 3 1) 0,
    left := locs.map fun _ => if mode = 0 then 1 else n, period := period }

theorem State.injectReq_arms {u : State} {r : Req} {mode det n period : Nat} {l : Loc} {wide : Bool} (h : InjectOk u r mode det n period l wide)
    {locs : List Loc} (hlocs : locs = if wide then u.dieWide det l else [l]) (hsome : locs ≠ []) :
    State.injectReq r u = ({ u with err := { u.err with injections := u.err.injections ++ [injectionOf u r mode det n period locs],
                                                          nextInj := u.err.nextInj + 1 } } : State).reply r .ok
      (beBytes 4 u.err.nextInj.toNat ++ beBytes 4 locs.length) := by
  obtain ⟨hlen, hmode, harmed, hknown, hflags, h7, h10, h20, rfl, rfl, rfl, rfl, hwide, hthere, honce, hcount, hroom, halive, hresets⟩ := h
  have hform : ¬ (r.payload.length ≠ 24 ∨ 2 < mode ∨ 8 ≤ field r.payload 3 1 ∨ field r.payload 7 1 ≠ 0 ∨ field r.payload 10 2 ≠ 0 ∨
      field r.payload 20 4 ≠ 0) := by omega
  have hargs : ¬ ((!true) = true ∨ (mode = 0 ∧ (field r.payload 12 4 ≠ 0 ∨ field r.payload 16 4 ≠ 0)) ∨
      (mode = 1 ∧ (field r.payload 12 4 = 0 ∨ field r.payload 16 4 = 0))) := by
    rintro (h | ⟨h, hne⟩ | ⟨h, he⟩)
    · exact absurd h (by decide)
    · have := honce h
      omega
    · have := hcount h
      omega
  have hmay : ¬ (u.lifeCycle = 4 ∨ (detResets (field r.payload 0 2) && !(bit (field r.payload 3 1) 2)) = true) := by
    rintro (h | h)
    · exact halive h
    · simp only [Bool.and_eq_true, Bool.not_eq_true'] at h
      exact absurd (hresets h.1) (by simp [h.2])
  have hmore : locs.isEmpty = false := by simpa using hsome
  simp only [State.injectReq, hmode, if_neg hform, if_neg harmed, hwide, hthere, if_neg hargs, Nat.not_le.mpr hroom, if_neg hmay, ← hlocs, hmore,
    Bool.false_eq_true, if_false, injectionOf]

/-- Settles O43. -/
theorem errorRequestsComplete : Obligations.ErrorRequestsComplete := by
  unfold Obligations.ErrorRequestsComplete
  refine ⟨fun rs next u' v => served_of _ (fun _ _ => rfl) ?records, fun det l => served_of _ (fun _ _ => rfl) ?instance_,
    fun det n period l locs j => ⟨fun once => served_of State.injectReq (fun f s => ?command) ?arm, served_of _ (fun _ _ => rfl) ?wide,
      served_of _ (fun _ _ => rfl) ?stop⟩,
    fun s u v inj index syn j l hj hl hleft hu hv => ?event, fun failed => served_of _ (fun _ _ => rfl) ?selftest,
    fun s test part failed us bad d d' hd hpart hrest hcalm hus hbad hd' => ?intrusive⟩
  case records =>
    rintro u r ⟨hlen, hkind, hflags, hlow, hhigh, hzero, hown, rfl, rfl, rfl, rfl⟩
    rw [State.errRead_records hlen hkind hflags hlow hhigh hzero hown]
    simp only [State.errRecords]
    rcases (u.err.wanted r.box (BitVec.ofNat 32 (field r.payload 4 4)) (field r.payload 2 2)).getLast? with _ | x <;> rfl
  case instance_ =>
    rintro u r ⟨hlen, hkind, hflags, hnone, hzero, hown, rfl, rfl, hknown, hthere⟩
    rw [State.errRead_instance hlen hkind hflags hnone hzero hown hknown hthere]
    simp only [State.errInst]
    rcases detThreshold (field r.payload 8 2) with _ | x <;> rfl
  case command => cases once <;> rfl
  case arm =>
    rintro u r ⟨hlen, hmode, hflags, h7, h10, h20, hn, hperiod, hdet, hl, hone, hknown, hthere, honce, hcount, hroom, halive, hresets, rfl⟩
    have hok : InjectOk u r (if once = true then 0 else 1) det n period l false :=
      ⟨hlen, hmode, by cases once <;> decide, by cases once <;> decide, hflags, h7, h10, h20, hn, hperiod, hdet, hl, hone,
        by simp only [hknown, hthere, Bool.false_eq_true, if_false, Bool.and_self],
        fun h => honce (by cases once; exact absurd h (by decide); rfl),
        fun h => hcount (by cases once; rfl; exact absurd h (by decide)), hroom, halive, hresets⟩
    rw [State.injectReq_arms hok (locs := [l]) rfl (by simp)]
    cases once <;> rfl
  case wide =>
    rintro u r ⟨hlen, hmode, hflags, h7, h10, h20, hn, hperiod, hdet, hl, hwide, hknown, hdie, htile, hroom, halive, hresets, hlocs, hsome, rfl⟩
    have hon : (!(detOnTile det) || decide (l.die < 24)) = true := by
      cases h : detOnTile det
      · rfl
      · simpa using htile h
    have hok : InjectOk u r 0 det 0 0 l true :=
      ⟨hlen, hmode, by decide, by decide, hflags, h7, h10, h20, hn.symm, hperiod.symm, hdet, hl, hwide,
        by simp only [hknown, hdie, hon, if_true, Bool.and_self], fun _ => ⟨rfl, rfl⟩, fun h => absurd h (by decide), hroom, halive, hresets⟩
    rw [State.injectReq_arms hok hlocs hsome]
    rfl
  case stop =>
    rintro u r ⟨hlen, hmode, hflags, h7, h10, h20, hj⟩
    have hform : ¬ (r.payload.length ≠ 24 ∨ 2 < 2 ∨ 8 ≤ field r.payload 3 1 ∨ field r.payload 7 1 ≠ 0 ∨ field r.payload 10 2 ≠ 0 ∨
        field r.payload 20 4 ≠ 0) := by omega
    simp only [State.injectReq, hmode, if_neg hform, if_true, hj]
  case event =>
    subst hu hv
    simp only [exec, execInjectedEvent, hj, hl, if_neg hleft]
  case selftest =>
    rintro u r ⟨hlen, hlow, hhigh, hscope⟩
    have hform : ¬ (r.payload.length ≠ 4 ∨ field r.payload 0 1 = 0 ∨ 16 < field r.payload 0 1 ∨
        (!u.scopeOk (field r.payload 1 1) (field r.payload 2 2)) = true) := by
      rw [hscope]
      simp only [Bool.not_true, Bool.false_eq_true, or_false]
      omega
    simp only [State.selftestReq, if_neg hform]
  case intrusive =>
    subst hd' hbad hus
    simp only [exec, execIntrusivePart, hd, hpart, hrest, hcalm, Bool.not_true, Bool.or_self, Bool.false_eq_true, if_false]

/-! ## CALIBRATE -/

/-- A CALIBRATE of a KIND below 0x80 whose scope exists goes by its KIND (Table 16-13). -/
theorem State.calibrateReq_kind {u : State} {r : Req} {k : Nat} (hk : field r.payload 0 1 = k) (hsmall : k ≠ 0x80) :
    State.calibrateReq r u = u.calibrateKind r := by
  simp only [State.calibrateReq, hk, if_neg hsmall]

theorem calibrate_form {u : State} {r : Req} {kind id : Nat} (hlen : r.payload.length = 16) (hkind : kind = 0 ∨ kind = 2)
    (hscope : u.scopeOk kind id = true) : ¬ (r.payload.length ≠ 16 ∨ (!decide (kind = 0 ∨ kind = 2)) = true ∨ (!u.scopeOk kind id) = true) := by
  simp [hlen, hkind, hscope]

/-- Settles O44. -/
theorem calibrationsComplete : Obligations.CalibrationsComplete := by
  unfold Obligations.CalibrationsComplete
  refine ⟨fun kind id => served_of _ (fun _ _ => rfl) ?age, fun v => served_of _ (fun _ _ => rfl) ?replan, served_of _ (fun _ _ => rfl) ?budget,
    served_of _ (fun _ _ => rfl) ?throttle, served_of _ (fun _ _ => rfl) ?idle, served_of _ (fun _ _ => rfl) ?retrain,
    served_of _ (fun _ _ => rfl) ?panel, fun id n => served_of _ (fun _ _ => rfl) ?port⟩
  case age =>
    rintro u r ⟨hlen, hop, rfl, rfl, hkind, hscope, hzero⟩
    rw [State.calibrateReq_kind hop (by decide)]
    simp only [State.calibrateKind, if_neg (calibrate_form hlen hkind hscope), hop, hzero, if_true]
  case replan =>
    rintro u r ⟨hlen, hop, hkind, hid, hzero, rfl, hfresh, hdue⟩
    have hscope : u.scopeOk (field r.payload 1 1) (field r.payload 2 2) = true := by rw [hkind, hid]; rfl
    rw [State.calibrateReq_kind hop (by decide)]
    simp only [State.calibrateKind, if_neg (calibrate_form hlen (.inl hkind) hscope)]
    simp only [hkind, hop, hzero, decide_true, Bool.and_self, if_true, State.replanReq, hfresh, hdue,
      Bool.not_true, Bool.false_eq_true, if_false]
  case budget =>
    rintro u r ⟨hlen, hop, hkind, hscope, hlow, hhigh, hzero⟩
    rw [State.calibrateReq_kind hop (by decide)]
    simp only [State.calibrateKind, if_neg (calibrate_form hlen hkind hscope), hop, Nat.add_zero, hlow, hhigh, hzero, decide_true, Bool.and_self,
      if_true]
  case throttle =>
    rintro u r ⟨hlen, hop, hkind, hscope, hlow, hhigh, hzero⟩
    rw [State.calibrateReq_kind hop (by decide)]
    simp only [State.calibrateKind, if_neg (calibrate_form hlen hkind hscope), hop, Nat.add_zero, hlow, hhigh, hzero, decide_true, Bool.and_self,
      if_true]
  case idle =>
    rintro u r ⟨hlen, hop, hkind, hscope, hdeep, hmost, hpll, hzero⟩
    have hrange : (decide (field r.payload 4 4 = 0) || (decide (100 ≤ field r.payload 4 4) && decide (field r.payload 4 4 ≤ 3600000))) = true := by
      rcases hdeep with h | h
      · simp [h]
      · simp [h, hmost]
    rw [State.calibrateReq_kind hop (by decide)]
    simp only [State.calibrateKind, if_neg (calibrate_form hlen hkind hscope), hop, Nat.add_zero, Nat.reduceAdd, hrange, hpll, hzero, decide_true,
      Bool.and_self, if_true]
  case retrain =>
    rintro u r ⟨hlen, hop, hkind, hdie, hzero⟩
    have hscope : u.scopeOk (field r.payload 1 1) (field r.payload 2 2) = true := by rw [hkind]; exact decide_eq_true hdie
    rw [State.calibrateReq_kind hop (by decide)]
    simp only [State.calibrateKind, if_neg (calibrate_form hlen (.inr hkind) hscope)]
    simp only [hkind, hop, hzero, decide_true, Bool.and_self, if_true]
  case panel =>
    rintro u r ⟨hlen, hop, hall, h2, h7, h27, hclosed, hfresh⟩
    have hform : ¬ (r.payload.length ≠ 37 ∨ field r.payload 2 3 ≠ 0 ∨ field r.payload 7 2 ≠ 0 ∨ field r.payload 27 2 ≠ 0) := by omega
    have hnone : ([32, 33, 34].any fun n => (u.preg n).worn) = false := by simpa using hfresh
    simp only [State.calibrateReq, hop, if_true, State.portConfigReq, if_neg hform, hall, hclosed, hnone, Bool.false_eq_true, if_false]
  case port =>
    rintro u r ⟨hlen, hop, rfl, hone, h2, h7, h27, hport, hcfg, hclosed, rfl, hfresh, hfresh'⟩
    have hform : ¬ (r.payload.length ≠ 37 ∨ field r.payload 2 3 ≠ 0 ∨ field r.payload 7 2 ≠ 0 ∨ field r.payload 27 2 ≠ 0) := by omega
    simp only [State.calibrateReq, hop, if_true, State.portConfigReq, if_neg hform, if_neg hone, hport, hcfg, hclosed, hfresh, hfresh',
      Bool.not_true, Bool.false_eq_true, or_self, if_false]

end Sys2Proof.Machine
end

section
/-! PROOFS. Headwater (R427-R443). -/

namespace Sys2Proof.Machine

/-! ## Failures of units in RUN -/

theorem State.pairFailed_of {s : State} {pair : Nat} (hrun : s.ent.state = .run) (hpair : pair < 16) (hon : s.ent.pairEn.getLsbD pair = true)
    (test det : Nat) :
    s.pairFailed pair test det = (((({ s with ent := { s.ent with
      pairEn := s.ent.pairEn &&& ~~~ (BitVec.ofNat 16 (2 ^ pair)), pairFail := s.ent.pairFail ||| BitVec.ofNat 16 (2 ^ pair),
      lastTest := BitVec.ofNat 3 test, lastUnit := BitVec.ofNat 5 pair } } : State).raise
        { det := det, loc := pairLoc pair, units := some s.bootEpoch }).hwFail false).failWaiters) := by
  simp only [State.pairFailed, hrun, hpair, hon, decide_true, Bool.and_self, if_true]
  rfl

section
variable {s : State}

/-- Twelve pairs are left: output goes on from them. -/
theorem State.hwFail_pairs (hsource : s.ent.source = false) (hmany : 12 ≤ (s.ent.stop .switching).pairs) (pool : Bool) :
    s.hwFail pool = { s with ent := (s.ent.stop .switching).enterRun false } := by
  have hkept : (s.ent.stop .switching).source = false := hsource
  simp only [State.hwFail, hkept, hmany, Bool.not_false, decide_true, Bool.and_self, if_true]

/-- Too few pairs are left, and the pool is there: the source switches. -/
theorem State.hwFail_switches (hstewards : s.stewardsRun = true) (hsource : s.ent.source = false) (hfew : (s.ent.stop .switching).pairs < 12) :
    s.hwFail false = { s with ent := s.ent.stop .switching } := by
  have hkept : (s.ent.stop .switching).source = false := hsource
  have hthere : ({ s with ent := s.ent.stop .switching } : State).stewardsRun = true := hstewards
  simp only [State.hwFail, hkept, Nat.not_le.mpr hfew, hthere, decide_false, Bool.and_false, Bool.false_and, Bool.false_eq_true, if_false, if_true]

/-- Too few pairs are left, and there is no pool. -/
theorem State.hwFail_alone (hstewards : s.stewardsRun = false) (hsource : s.ent.source = false) (hfew : (s.ent.stop .switching).pairs < 12) :
    (s.hwFail false).ent.state = .failed := by
  have hkept : (s.ent.stop .switching).source = false := hsource
  have hnone : ({ s with ent := s.ent.stop .switching } : State).stewardsRun = false := hstewards
  simp only [State.hwFail, hkept, Nat.not_le.mpr hfew, hnone, decide_false, Bool.and_false, Bool.false_and, Bool.false_eq_true, if_false]

/-- Sixteen sentinels of a pool in use are left: output goes on from them. -/
theorem State.hwFail_sentinels (hsource : s.ent.source = true) (hmany : 16 ≤ (s.ent.stop .switching).sentinels) :
    s.hwFail true = { s with ent := (s.ent.stop .switching).enterRun true } := by
  have hkept : (s.ent.stop .switching).source = true := hsource
  simp only [State.hwFail, hkept, hmany, Bool.not_true, Bool.false_and, Bool.and_self, decide_true, Bool.false_eq_true, if_false, if_true]

/-- Too few sentinels of a pool in use are left. -/
theorem State.hwFail_poolLost (hsource : s.ent.source = true) (hfew : (s.ent.stop .switching).sentinels < 16) :
    (s.hwFail true).ent.state = .failed := by
  have hkept : (s.ent.stop .switching).source = true := hsource
  simp only [State.hwFail, hkept, Nat.not_le.mpr hfew, Bool.not_true, Bool.false_and, Bool.and_self, Bool.and_false, decide_false, Bool.false_eq_true,
    if_false, if_true]

end

/-! ## Requests and reseeds -/

/-- The form of an ENTROPY_GET that R440 accepts. -/
theorem entropyGet_form {r : Req} (hlen : r.payload.length = 8) (hlow : 1 ≤ field r.payload 0 2) (hhigh : field r.payload 0 2 ≤ 4096)
    (hflags : field r.payload 2 1 ≤ 1) (hzero : zeroBytes r.payload 3 5 = true) (hraw : field r.payload 2 1 = 1 → field r.payload 0 2 ≤ 256) :
    ¬ (r.payload.length ≠ 8 ∨ 2 ≤ field r.payload 2 1 ∨ (!zeroBytes r.payload 3 5) = true ∨ field r.payload 0 2 = 0 ∨ 4096 < field r.payload 0 2 ∨
      (field r.payload 2 1 = 1 ∧ 256 < field r.payload 0 2)) := by
  rw [hzero]
  rintro (h | h | h | h | h | ⟨h, hmany⟩)
  case inr.inr.inl => exact absurd h (by decide)
  case inr.inr.inr.inr.inr => have := hraw h; omega
  all_goals omega

/-- The end of EXP_SEED without a request that waits. -/
theorem exec_expSeed_quiet {s : State} (hc : s.Calm) (hrun : s.ent.state = .run) (hnone : s.ent.waiters = []) :
    exec .expSeed s = .next { s with ent := s.ent.seed } := by
  have hkept : s.ent.seed.waiters = [] := (EntropyState.seed_keeps s.ent).2.trans hnone
  have e : exec .expSeed s = .next (finishGeom s { s with ent := s.ent.seed }) := by
    simp only [exec, execExpSeed, hrun, if_true, hkept, List.length_nil, State.serveWaiters]
  exact e.trans (congrArg Host.Outcome.next (finishGeom_quiet s _ hc.due hc.reset hc.up))

/-- EXP_SEED with one request that waits serves it. -/
theorem exec_expSeed_serves {s : State} {w : Waiter} (hrun : s.ent.state = .run) (hone : s.ent.seed.waiters = [w]) :
    exec .expSeed s = .next (finishGeom s
      (({ s with ent := { s.ent.seed with waiters := [], lastBox := if w.cls = 6 then w.box else s.ent.seed.lastBox } } : State).handle w.req)) := by
  have hstate : s.ent.seed.state = .run := (EntropyState.seed_keeps s.ent).1.trans hrun
  simp only [exec, execExpSeed, hrun, if_true, hone, List.length_singleton]
  have hnext : s.ent.seed.nextWaiter = some w := by simp only [EntropyState.nextWaiter, hone, List.foldl_cons, List.foldl_nil]
  simp only [State.serveWaiters, hstate, hnext, hone, List.erase_cons_head, if_true]

/-- Settles O45. -/
theorem entropyCompletes : Obligations.EntropyCompletes := by
  unfold Obligations.EntropyCompletes
  refine ⟨fun d => served_of _ (fun _ _ => rfl) ?get, served_of _ (fun _ _ => rfl) ?waits, fun s u m w hw hu => ?timeout,
    fun s u pair apt hrun hpair hon hu => ?pair, fun s u die apt hrun hdie hon hu => ?sentinel,
    fun s => ⟨State.hwFail_switches, fun pool hsource hmany => State.hwFail_pairs hsource hmany pool, State.hwFail_sentinels, State.hwFail_poolLost,
      State.hwFail_alone⟩,
    fun s passed u e en hstate hrepairs hen hu he hmany => ?startup, fun s passed out u e hstate hout hu he hmany => ?switching,
    fun s kind hkind => ?kat, fun s hc => ⟨exec_expSeed_quiet hc, exec_calm rfl hc, fun hrun => ?masking⟩, fun s => rfl,
    fun s w hrun hone u hu hkept => ?serves⟩
  case get =>
    rintro u r ⟨hlen, hlow, hhigh, hflags, hzero, hraw, hrun, rfl⟩
    simp only [State.entropyGet, if_neg (entropyGet_form hlen hlow hhigh hflags hzero hraw), hrun]
  case waits =>
    rintro u r ⟨hlen, hlow, hhigh, hflags, hzero, hrun, hfailed⟩
    have hform := entropyGet_form hlen hlow hhigh (by omega) hzero (fun h => by omega)
    simp only [State.entropyGet, if_neg hform]
  case timeout =>
    subst hu
    simp only [exec, execEntropyGetTimeout, hw]
  case pair =>
    subst hu
    cases apt
    · exact congrArg (fun v => Host.Outcome.next (finish s v)) (State.pairFailed_of hrun hpair hon 1 0x0801)
    · exact congrArg (fun v => Host.Outcome.next (finish s v)) (State.pairFailed_of hrun hpair hon 2 0x0802)
  case sentinel =>
    subst hu
    simp only [exec, execSentHealth, hrun, hdie, hon, decide_true, Bool.and_self, if_true]
  case startup =>
    subst hen hu he
    have hclear : ∀ k, s.repairs.contains (repairEntry 6 k) = false := fun k => by rw [hrepairs]; rfl
    simp only [exec, execStartupTest, hstate, hclear, Bool.not_false, Bool.and_true, Bool.or_false, hmany, decide_true, if_true]
  case switching =>
    subst hout hu he
    simp only [exec, execStartupTest, hstate, hmany, decide_true, Bool.and_self, if_true]
  case kat => rcases hkind with rfl | rfl | rfl <;> rfl
  case masking => exact exec_calm (by simp only [exec, execMaskingReseed, hrun, if_true, State.drawPlain]) hc
  case serves =>
    subst hu
    exact exec_expSeed_serves hrun hkept

end Sys2Proof.Machine
end

section
/-! PROOFS. Device resets, supplies, limiters, sleep and register writes (R448-R469, R473, R499-R503). -/

namespace Sys2Proof.Machine

/-! ## Resets -/

/-- A state with another's persistent registers and journal: what a device reset keeps (R344, R473). -/
def State.SameStores (s t : State) : Prop := t.firm.pregs = s.firm.pregs ∧ t.journal = s.journal

theorem State.SameStores.refl (s : State) : s.SameStores s := ⟨rfl, rfl⟩

theorem State.SameStores.trans {s t u : State} (h : s.SameStores t) (g : t.SameStores u) : s.SameStores u :=
  ⟨g.1.trans h.1, g.2.trans h.2⟩

theorem State.SameStores.ite {s t u : State} {p : Prop} [Decidable p] (h : s.SameStores t) (g : s.SameStores u) :
    s.SameStores (if p then t else u) := by
  split
  · exact h
  · exact g

theorem State.HostOnly.sameStores {s t : State} (h : s.HostOnly t) : s.SameStores t := by
  unfold State.HostOnly at h
  rw [h]
  exact ⟨rfl, rfl⟩

theorem State.foldl_sameStores {α : Type} (l : List α) (g : State → α → State) (h : ∀ (s : State) (a : α), s.SameStores (g s a)) (s : State) :
    s.SameStores (l.foldl g s) := by
  induction l generalizing s with
  | nil => exact .refl s
  | cons a l ih => exact (h s a).trans (ih _)

theorem State.pumpConn_sameStores (n : Nat) (s : State) (part peer ix : Nat) : s.SameStores (State.pumpConn n s part peer ix) := by
  induction n generalizing s with
  | zero => exact .refl s
  | succ n ih =>
    have hsent : ∀ k w, s.SameStores (s.sendFrame k w) := fun k w => ⟨rfl, rfl⟩
    unfold State.pumpConn
    split
    · exact .refl s
    · split
      · exact (hsent _ _).trans (ih _)
      · split
        · exact (hsent _ _).trans (ih _)
        · exact .refl s

theorem State.tribSend_sameStores (s : State) (part peer ix type : Nat) (context : BitVec 32) (flags : Nat) (payload : List Byte) :
    s.SameStores (s.tribSend part peer ix type context flags payload) := by
  have hwaits : ∀ g, s.SameStores (s.updConn part peer ix g) := fun g => ⟨rfl, rfl⟩
  unfold State.tribSend
  simp only []
  split
  · exact (hwaits _).trans (State.pumpConn_sameStores _ _ _ _ _)
  · exact hwaits _

theorem State.sendLeave_sameStores (s : State) (part reason : Nat) : s.SameStores (s.sendLeave part reason) := by
  refine State.foldl_sameStores _ _ (fun u k => ?_) s
  split
  · exact (State.tribSend_sameStores _ _ _ _ _ _ _ _).trans ⟨rfl, rfl⟩
  · exact .refl u

theorem State.sendBye_sameStores (s : State) (reason : Nat) : s.SameStores (s.sendBye reason) := by
  refine State.foldl_sameStores _ _ (fun u e => ?_) s
  split
  · exact ⟨rfl, rfl⟩
  · exact .refl u

theorem State.errorEvent_sameStores (s : State) (r : ErrRec) : s.SameStores (s.errorEvent r) := by
  unfold State.errorEvent
  split
  · exact ⟨rfl, rfl⟩
  · simp only []
    split
    · exact ((State.event_hostOnly _ _ _ _ _).trans (State.event_hostOnly _ _ _ _ _)).sameStores
    · exact (State.event_hostOnly _ _ _ _ _).sameStores

theorem State.writeHeld_sameStores (flush : Bool) (n : Nat) (s : State) : s.SameStores (State.writeHeld flush n s) := by
  induction n generalizing s with
  | zero => exact .refl s
  | succ n ih =>
    have hrec : ∀ (e : ErrState) (r : ErrRec), s.SameStores (({ s with err := e } : State).errorEvent r) := fun e r =>
      (show s.SameStores ({ s with err := e } : State) from ⟨rfl, rfl⟩).trans (State.errorEvent_sameStores _ r)
    unfold State.writeHeld
    split
    · split
      · exact .refl s
      · exact (hrec _ _).trans (ih _)
    · split
      · exact .refl s
      · exact .ite ((hrec _ _).trans (ih _)) (.refl s)

theorem State.flushHeld_sameStores (s : State) : s.SameStores s.flushHeld := by
  obtain ⟨hpregs, hjournal⟩ := State.writeHeld_sameStores true (s.err.insts.length + s.err.waiting.length + 1) s
  unfold State.flushHeld
  exact ⟨hpregs, hjournal⟩

/-- What a device reset leaves (R9, R344, R473, R500): with the flush of R479 or without it. -/
theorem wasReset_of {s u : State} {c : Cause} (h : s.SameStores u) :
    Claim.WasReset s c { u.deviceReset c with pending := s.pending, fuses := s.fuses, geom := [] } := by
  have hflushed : s.SameStores (if c.flushes = true then ((u.sendBye 0).sendLeave 0 0).flushHeld else u) := by
    split
    · exact h.trans (((u.sendBye_sameStores 0).trans (State.sendLeave_sameStores _ 0 0)).trans (State.flushHeld_sameStores _))
    · exact h
  constructor
  case pregs => exact hflushed.1
  case jobs => exact congrArg (fun j => j.jobs.map Job.atReset) hflushed.2
  all_goals rfl

/-- The end of a command on a panel in reset adds nothing where the panel has no rectangles. -/
theorem finish_inReset {s u : State} (hdue : u.err.due = []) (hreset : u.resetReq = none) (hgeom : u.geom = []) (hin : u.power.inReset = true)
    (hqueue : u.pending = s.pending := by rfl) (hfuses : u.fuses = s.fuses := by rfl) : finish s u = u := by
  simp only [finish, State.settleAll_quiet u hdue hreset, hin, if_true, ← hqueue, ← hfuses, ← hgeom]

/-- Settles O46: each command calls for its device reset, and its end carries it out. -/
theorem resetsComplete : Obligations.ResetsComplete := by
  unfold Obligations.ResetsComplete
  refine fun s hdue => ⟨fun hout hcool => ?resetN, ?auxLoss, fun hout => ?brownout, fun die temp => ?trip, fun htrip hin hreset hgeom hcool => ?tripEnds⟩
  case resetN =>
    have e : exec .resetN s = .next (finish s { s with resetReq := some .resetN }) := by
      simp only [exec, execResetN, hcool, hout, Bool.false_eq_true, if_false]
    exact ⟨_, e.trans (congrArg Host.Outcome.next (finish_reset s _ .resetN hdue rfl)), wasReset_of ⟨rfl, rfl⟩, rfl⟩
  case auxLoss =>
    have e : exec .auxLoss s = .next (finish s { s with resetReq := some .powerOn }) := rfl
    exact ⟨_, e.trans (congrArg Host.Outcome.next (finish_reset s _ .powerOn hdue rfl)), wasReset_of ⟨rfl, rfl⟩, rfl, rfl, rfl⟩
  case brownout =>
    have e : exec .vinBrownout s = .next (finish s { s with resetReq := some .brownout }) := by
      simp only [exec, execVinBrownout, hout, Bool.false_eq_true, if_false]
    exact ⟨_, e.trans (congrArg Host.Outcome.next (finish_reset s _ .brownout hdue rfl)), wasReset_of ⟨rfl, rfl⟩, rfl⟩
  case trip =>
    have e : exec (.thermTrip die temp) s =
      .next (finish s { (s.updDie die fun d => { d with tj := temp }) with resetReq := some .thermTrip }) := rfl
    exact ⟨_, e.trans (congrArg Host.Outcome.next (finish_reset s _ .thermTrip hdue rfl)), wasReset_of ⟨rfl, rfl⟩, rfl, rfl, rfl⟩
  case tripEnds =>
    have hall : (s.power.dies.all fun e => decide (e.2.tj.toNat ≤ 90)) = true := by simpa using hcool
    have e : exec .resetN s = .next (finish s { s with power := { s.power with trip := false, thermTripN := true } }) := by
      simp only [exec, execResetN, htrip, hall, if_true]
    exact e.trans (congrArg Host.Outcome.next (finish_inReset hdue hreset hgeom hin))

end Sys2Proof.Machine
end

section
/-! PROOFS. Supplies, limiters, sleep and register writes (R9, R448-R469, R499). -/

namespace Sys2Proof.Machine

/-! ## Supplies -/

/-- An entry that contributes nothing may be set: what a table's entries spell stays. -/
theorem Tab.flatMap_set {α β : Type} (t : Tab α) (k : Nat) (v : α) (g : Nat × α → List β) (h : ∀ a, g (k, a) = []) :
    (t.set k v).flatMap g = t.flatMap g := by
  induction t with
  | nil => simp [Tab.set, h]
  | cons e t ih =>
    unfold Tab.set
    split
    case isTrue he =>
      have hgone : g e = [] := by rw [show e = (k, e.2) from Prod.ext he rfl, h]
      simp [h, hgone]
    case isFalse he =>
      split
      · simp [h]
      · simp [ih]

/-- The BOOT_EPOCH rotation lies in registers 16 to 23 (Table 13-13). -/
theorem State.epochRegister_range {s : State} {n : Nat} (h : s.epochRegister = some n) : 16 ≤ n ∧ n < 24 := by
  obtain ⟨k, -, rfl⟩ := List.mem_map.mp (List.mem_of_find?_eq_some h)
  omega

/-- A write of a register outside the repair list leaves the repairs in force. -/
theorem State.repairs_pregWrite (s : State) {n : Nat} (v : Word) (h : n < 152) : (s.pregWrite n v).repairs = s.repairs := by
  unfold State.pregWrite
  simp only []
  split
  · rfl
  · have hlist := Tab.flatMap_set s.firm.pregs n { value := v, wcount := (s.preg n).wcount + 1 }
      (fun e => if 152 ≤ e.1 ∧ e.1 < 256 then [BitVec.extractLsb' 0 32 e.2.value, BitVec.extractLsb' 32 32 e.2.value] else [])
      (fun a => if_neg (by omega))
    exact congrArg (fun l : List (BitVec 32) => (l.filter fun e => decide (e ≠ 0)) ++ s.err.epochRepairs) hlist

/-- An episode begins in the power state. -/
theorem State.beginEpisode_eq (s : State) (cause die : Nat) :
    s.beginEpisode cause die = { s with power := { s.power with episodes := (s.beginEpisode cause die).power.episodes } } := by
  unfold State.beginEpisode
  split <;> rfl

/-- An emergency ends an activation that waits, and nothing else. -/
theorem State.emergencyBegan_quiet {s : State} (h : s.firm.phase ≠ .waiting) : s.emergencyBegan = s := by
  simp only [State.emergencyBegan, State.actAbort, if_neg h, ite_self]

/-- Settles O47. -/
theorem suppliesComplete : Obligations.SuppliesComplete := by
  unfold Obligations.SuppliesComplete
  refine ⟨fun s n hdue hreset hin htrip hnext hfresh => ?cold, fun s hdue hreset hin hgeom => ?refInReset, fun s hout => ?refLost,
    fun s u vin hout hu hphase hc => ?dip, fun s hc hdip => ?recovery, fun s hhold hdip => ?holdEnd, fun s hout => ?blade, fun s hblade => ?bladeEnd,
    fun s hcause => ?halves⟩
  case cold =>
    let r : State := { s with power := s.power.released }
    obtain ⟨hwatched, hwritten, hothers, hframe⟩ := State.pregWriteWatched_fresh r n (BitVec.ofNat 64 (r.bootEpoch + 1)) hfresh
    have hrange := State.epochRegister_range hnext
    have hcount : r.countBoot = r.pregWrite n (BitVec.ofNat 64 (r.bootEpoch + 1)) := by
      have hr : r.epochRegister = some n := hnext
      simp only [State.countBoot, hr, hwatched]
    have hrepairs : r.countBoot.repairs = s.repairs := hcount ▸ State.repairs_pregWrite r _ (by omega)
    have e : exec (.coldStart true true) s = .next (finish s r.countBoot.startHost) := by
      simp only [exec, execColdStart, hin, htrip, Bool.not_true, Bool.or_self, Bool.false_eq_true, if_false, if_true]
      rfl
    rw [hframe] at hcount
    have hquiet : finish s r.countBoot.startHost = { r.countBoot.startHost with pending := s.pending, fuses := s.fuses, geom := s.geom } :=
      finish_quiet _ _ (by rw [hcount]; exact hdue) (by rw [hcount]; exact hreset) (by rw [hcount]; rfl)
    refine ⟨_, e.trans (congrArg Host.Outcome.next hquiet), ?_⟩
    have hfirm : ∀ m, ({ r.countBoot.startHost with pending := s.pending, fuses := s.fuses, geom := s.geom } : State).preg m =
        (r.pregWrite n (BitVec.ofNat 64 (r.bootEpoch + 1))).preg m := fun m => by
      show r.countBoot.preg m = _
      rw [hcount]
      rfl
    refine ⟨by rw [hcount]; rfl, by rw [hcount]; rfl, by rw [hcount]; rfl, by rw [hcount]; rfl, ?_, fun m hm => (hfirm m).trans (hothers m hm), ?_, rfl,
      by rw [hcount]; rfl, by rw [hcount]; rfl, by rw [hcount]; rfl, fun k hk => ?_⟩
    · rw [hfirm n, hwritten]
      rfl
    · rw [hcount]
      rfl
    · rw [← hrepairs]
      match k, hk with
      | 0, _ => rfl
      | 1, _ => rfl
  case refInReset =>
    have e : exec .refLoss s = .next (finish s { s with power := { s.power with refUp := false } }) := by
      simp only [exec, execRefLoss, hin, if_true]
    exact e.trans (congrArg Host.Outcome.next (finish_inReset hdue hreset hgeom hin))
  case refLost => simp only [exec, execRefLoss, hout, Bool.false_eq_true, if_false]
  case dip =>
    have hfirm : u.firm = s.firm := by rw [hu, State.beginEpisode_eq]
    have e : exec (.vinDip vin) s = .next (finish s { u with power := { u.power with dip := true, hold := false, vin10mv := vin } }) := by
      simp only [exec, execVinDip, hout, Bool.false_eq_true, if_false, ← hu]
      rw [State.emergencyBegan_quiet (by rw [← hfirm] at hphase; exact hphase)]
    rw [State.beginEpisode_eq] at hu
    subst hu
    exact exec_calm e hc
  case recovery => exact exec_calm (by simp only [exec, execDipRecovery, hdip, if_true]) hc
  case holdEnd => simp only [exec, execDipHoldEnd, hhold, hdip, Bool.not_false, Bool.and_self, if_true]
  case blade => simp only [exec, execBladeLimit, hout, Bool.false_eq_true, if_false]
  case bladeEnd => simp only [exec, execBladeLimitEnd, hblade, if_true]
  case halves => rcases hcause with h | h | h <;> simp [PowerState.halved, PowerState.emergency, h]

/-! ## Limiters -/

theorem State.setRail_eq (s : State) (die : Nat) :
    s.setRail die = { s with power := { s.power with dies := (s.setRail die).power.dies } } := by
  unfold State.setRail
  split <;> rfl

/-- Settles O48. -/
theorem limitersComplete : Obligations.LimitersComplete := by
  unfold Obligations.LimitersComplete
  refine fun s die => ⟨fun temp hout => ⟨fun hdie => ?hot, fun hdie hnew u hu => ?hotEdge⟩,
    fun temp u hu => ⟨fun hdie hcool => ?coolDie, fun hdie hcool hc => ?coolEdge⟩, fun hout => ?rail, fun mv hmv hclamped => ?railEnd, rfl, rfl,
    fun hnone => ?pllFree, fun p ps hparts => ?pllParts, rfl, fun f hc hmode hlow hhigh hdie => ?clock, fun f hmode hrange => ?refused,
    fun hc => exec_calm rfl hc⟩
  case hot => simp only [exec, execTjClamp, hout, hdie, Bool.false_eq_true, if_true, if_false]
  case hotEdge =>
    subst hu
    have hkept : (s.updDie die fun d => { d with tj := temp }).power.hotDies.contains die = false := hnew
    simp only [exec, execTjClamp, hout, Nat.not_lt.mpr hdie, hkept, Bool.false_eq_true, if_false]
  case coolDie =>
    subst hu
    simp only [exec, execTjClampEnd, Nat.not_lt.mpr hcool, hdie, if_true, if_false]
  case coolEdge =>
    subst hu
    exact exec_calm (by simp only [exec, execTjClampEnd, Nat.not_lt.mpr hcool, Nat.not_lt.mpr hdie, if_false]) hc
  case rail => simp only [exec, execRailClamp, hout, Bool.false_eq_true, if_false]
  case railEnd => simp only [exec, execRailClampEnd, hmv, hclamped, decide_true, Bool.and_self, if_true]
  case pllFree => simp only [exec, execPllLock, State.pllLost, hnone, Bool.false_eq_true, if_false]
  case pllParts => simp only [exec, execPllLock, State.pllLost, hparts, Bool.false_eq_true, if_false]
  case clock =>
    have e : exec (.clockRequest die f) s = .next (finish s ((s.updDie die fun d => { d with fReq := f }).setRail die)) := by
      simp only [exec, execClockRequest, hmode, hlow, hhigh, hdie, ne_eq, not_true_eq_false, decide_true, Bool.and_self, if_true, if_false]
    rw [State.setRail_eq] at e ⊢
    exact exec_calm e hc
  case refused =>
    have hout : (decide (50 ≤ f.toNat) && decide (f.toNat ≤ 200) && decide (die < 24)) = false := by
      rcases hrange with h | h
      · simp [Nat.not_le.mpr h]
      · simp [Nat.not_le.mpr h]
    simp only [exec, execClockRequest, hmode, hout, ne_eq, not_true_eq_false, Bool.false_eq_true, if_false, State.grantRefused]

/-! ## Sleep -/

/-- A change of every die of a list, each by its own number. -/
def State.updDies (s : State) (l : List Nat) (g : Nat → DiePower → DiePower) : State := l.foldl (fun t n => t.updDie n (g n)) s

theorem State.updDies_eq (s : State) (l : List Nat) (g : Nat → DiePower → DiePower) :
    s.updDies l g = { s with power := { s.power with dies := (s.updDies l g).power.dies } } := by
  induction l generalizing s with
  | nil => rfl
  | cons n l ih => exact ih (s.updDie n (g n))

theorem State.diePower_updDie_same (s : State) (n : Nat) (f : DiePower → DiePower) : (s.updDie n f).diePower n = f (s.diePower n) :=
  Tab.getD_set_same _ _ _ _

theorem State.diePower_updDie_other (s : State) {n m : Nat} (f : DiePower → DiePower) (h : m ≠ n) : (s.updDie n f).diePower m = s.diePower m :=
  Tab.getD_set_other _ _ _ h

theorem State.diePower_updDies_other (s : State) {l : List Nat} (g : Nat → DiePower → DiePower) {m : Nat} (h : m ∉ l) :
    (s.updDies l g).diePower m = s.diePower m := by
  induction l generalizing s with
  | nil => rfl
  | cons n l ih =>
    rw [List.mem_cons, not_or] at h
    exact (ih (s.updDie n (g n)) h.2).trans (State.diePower_updDie_other s (g n) h.1)

theorem State.diePower_updDies (s : State) {l : List Nat} (hl : l.Nodup) (g : Nat → DiePower → DiePower) {m : Nat} (h : m ∈ l) :
    (s.updDies l g).diePower m = g m (s.diePower m) := by
  induction l generalizing s with
  | nil => simp at h
  | cons n l ih =>
    obtain ⟨hn, hl⟩ := List.nodup_cons.mp hl
    by_cases hm : m = n
    · subst hm
      exact (State.diePower_updDies_other _ g hn).trans (State.diePower_updDie_same s m (g m))
    · have hrest : m ∈ l := (List.mem_cons.mp h).resolve_left hm
      exact (ih _ hl hrest).trans (congrArg (g m) (State.diePower_updDie_other s (g n) hm))

/-- Every compute die changed. -/
theorem State.diePower_allDies (s : State) (g : Nat → DiePower → DiePower) {n : Nat} (h : n < 24) :
    (s.updDies (List.range 24) g).diePower n = g n (s.diePower n) :=
  State.diePower_updDies s List.nodup_range g (List.mem_range.mpr h)

/-- Settles O49: sleeping and waking change the power state, deep idle also the ports. -/
theorem sleepCompletes : Obligations.SleepCompletes := by
  unfold Obligations.SleepCompletes
  refine fun s hc => ⟨fun x y hidle hon => ?gate, fun x y => exec_calm rfl hc, fun die hunits hrest => ?sleep, fun die => exec_calm rfl hc,
    fun hmay => ?deep, fun hdeep hnone => ?exit, fun hdeep hnone => ?scrub, fun x y count mv tj slow u hslow hu => ?age⟩
  case gate => exact exec_calm (by simp only [exec, execTileGate, hidle, hon, Bool.not_false, Bool.and_self, if_true]) hc
  case sleep =>
    have hall : (((List.range 13).flatMap fun k => (List.range 12).map fun c => (die % 4 * 12 + c, die / 4 * 13 + k)).all
        fun t => s.unitsOff t.1 t.2) = true := by
      simp only [List.all_flatMap, List.all_map, List.all_eq_true, List.mem_range, Function.comp_apply]
      exact fun k hk c hcol => hunits k c hk hcol
    have hparts : (s.partsOnDie die).all s.atBoundary = true := List.all_eq_true.mpr hrest
    exact exec_calm (by simp only [exec, execDieSleep, hall, hparts, Bool.and_self, if_true]) hc
  case deep =>
    let d := s.updDies (List.range 24) fun _ d => { d with vtile := 500, asleep := true }
    have hd : d = { s with power := { s.power with dies := d.power.dies } } := State.updDies_eq _ _ _
    have e : exec .deepIdle s = .next (finish s { d with
        power := { d.power with deepIdle := true, txIdle := true },
        trib := { d.trib with ports := d.trib.ports.mapVals fun p => { p with up := false } } }) := by
      simp only [exec, execDeepIdle, hmay, if_true]
      rfl
    have hkept : ∀ n, n < 24 → d.diePower n = { s.diePower n with vtile := 500, asleep := true } := fun n hn => State.diePower_allDies s _ hn
    clear_value d
    rw [hd] at e
    refine ⟨_, exec_calm e hc, rfl, rfl, hkept, rfl⟩
  case exit =>
    let d := s.updDies (List.range 24) fun n d => { d with vtile := s.railMv n, asleep := false }
    have hd : d = { s with power := { s.power with dies := d.power.dies } } := State.updDies_eq _ _ _
    have hkept : ∀ n, n < 24 → d.diePower n = { s.diePower n with vtile := s.railMv n, asleep := false } := fun n hn => State.diePower_allDies s _ hn
    have e : exec .deepIdleExit s = .next (finishGeom s { d with
        power := { d.power with deepIdle := false, txIdle := false, wakers := [] },
        trib := { d.trib with ports := d.trib.ports.mapVals fun p => { p with up := !p.disabled } } }) := by
      simp only [exec, execDeepIdleExit, hdeep, hnone, if_true]
      rfl
    clear_value d
    rw [hd] at e
    exact ⟨_, e.trans (congrArg Host.Outcome.next (finishGeom_quiet s _ hc.due hc.reset hc.up)), rfl, rfl, hkept, rfl⟩
  case scrub =>
    let d := s.updDies (List.range 24) fun n d => { d with vtile := s.railMv n, asleep := false }
    have hd : d = { s with power := { s.power with dies := d.power.dies } } := State.updDies_eq _ _ _
    have e : exec .scrubWake s = .next (finishGeom s (({ d with
        power := { d.power with deepIdle := false, txIdle := false, wakers := [] },
        trib := { d.trib with ports := d.trib.ports.mapVals fun p => { p with up := !p.disabled } } } : State).scrubAll)) := by
      simp only [exec, execScrubWake, hdeep, hnone, if_true]
      rfl
    clear_value d
    rw [hd] at e
    exact ⟨_, e.trans (congrArg Host.Outcome.next (finishGeom_quiet s _ hc.due hc.reset hc.up)), rfl, rfl, rfl⟩
  case age =>
    subst hslow hu
    exact exec_calm rfl hc

/-! ## Register writes -/

/-- Settles O50, along the registers. -/
theorem registerWritesComplete : Obligations.RegisterWritesComplete := by
  unfold Obligations.RegisterWritesComplete
  refine fun s v hc => ⟨fun t => exec_calm rfl hc, fun t => exec_calm rfl hc, fun x y hx hy => ?router, exec_calm rfl hc,
    fun id cfg hcfg hport hclosed hok => ?tribCfg, fun n hlow hhigh hfresh => ?persistent, fun reg hreg hrouter hcause => ?others⟩
  case router => exact exec_calm (by simp only [exec, execRegisterWrite, State.registerWrite, State.writeRouterCtrl, hx, hy, and_self, if_true]) hc
  case tribCfg =>
    subst hcfg
    exact exec_calm (by simp only [exec, execRegisterWrite, State.registerWrite, State.writeTribCfg, hport, hclosed, hok, Bool.not_false, Bool.and_self,
      if_true]) hc
  case persistent =>
    obtain ⟨hwatched, -, -, hframe⟩ := State.pregWriteWatched_fresh s n (v &&& pregMask n) hfresh
    have e : exec (.registerWrite (.persistent n) v) s = .next (finish s (s.pregWrite n (v &&& pregMask n))) := by
      simp only [exec, execRegisterWrite, State.registerWrite, State.writePersistent, hlow, hhigh, and_self, if_true, hwatched]
    rw [hframe] at e ⊢
    exact exec_calm e hc
  case others =>
    have e : exec (.registerWrite reg v) s = .next (finish s s) := by
      cases reg with
      | fpStatus t => exact absurd rfl (hreg t).1
      | riffleStatus t => exact absurd rfl (hreg t).2.1
      | seqProgress t => exact absurd rfl (hreg t).2.2.1
      | eyepiece t => exact absurd rfl (hreg t).2.2.2.1
      | tribCfg t => exact absurd rfl (hreg t).2.2.2.2.1
      | persistent t => exact absurd rfl (hreg t).2.2.2.2.2
      | routerCtrl x y => exact absurd rfl (hrouter x y)
      | resetCause => exact absurd rfl hcause
      | _ => rfl
    exact exec_calm e hc

end Sys2Proof.Machine
end

section
/-! PROOFS. Tributary: frames that are delivered, lock-step messages, the transport's timers and links (O51-O53). -/

namespace Sys2Proof.Machine

/-! ## A frame that is heard and new reaches its handler (R294) -/

/-- A frame that is heard is opened. -/
theorem State.tribReceive_of_hears {s : State} {type : Nat} {f : TFrame} {k : Conn} {b : List Byte} (h : s.Hears type f k b) :
    s.tribReceive type f = s.tribOpened k (k.rotOf f.keyId.toNat) f type b := by
  obtain ⟨out, awake, up, on, udp, known, conn, port, peer, panel, version, fields, tag⟩ := h
  have hhead : ¬ (k.port ≠ f.port ∨ k.peerPart ≠ f.srcPart.toNat ∨ f.dstPanel.toNat ≠ s.panel ∨ f.version ≠ 1 ∨ f.reservedSet type = true) := by
    simp [port, peer, panel, version, fields]
  rw [TFrame.aad] at tag
  simp only [State.tribReceive, out, awake, up, on, udp, known, conn, tag, if_neg hhead, Bool.or_self, Bool.not_true, Bool.false_and, Bool.false_eq_true, if_false]

/-- A SEQ inside the receive window is no duplicate. -/
theorem not_behind {cum seq : BitVec 32} (h : (seq - cum).toNat < 65536) : ¬ (1 ≤ (cum - seq).toNat ∧ (cum - seq).toNat ≤ 2 ^ 31) := by
  bv_omega

/-- A new frame whose context lies in the window goes to the handler of its type, on the marked panel. -/
theorem State.tribOpened_eq_deliver {s u : State} {type : Nat} {f : TFrame} {k q : Conn} {b : List Byte} (htype : type ≠ 2)
    (hwindow : (f.seq - k.cum).toNat < 65536) (hnew : k.above.contains f.seq = false) (hctx : k.ctxFault f type = none)
    (hu : u = s.marked k f) (hq : u.conn k.part k.peer k.ix = some q) :
    s.tribOpened k (k.rotOf f.keyId.toNat) f type b = u.deliver q f type b := by
  have hfresh : ¬ ((1 ≤ (k.cum - f.seq).toNat ∧ (k.cum - f.seq).toNat ≤ 2 ^ 31) ∨ k.above.contains f.seq = true) := by
    rw [hnew]
    exact fun h => h.elim (not_behind hwindow) nofun
  simp only [State.tribOpened, if_neg htype, if_neg hfresh, if_neg (Nat.not_le.mpr hwindow), hctx]
  simp only [State.marked] at hu
  generalize State.updConn _ k.part k.peer k.ix (fun c => c.markSeq f.seq (k.rotOf f.keyId.toNat)) = w at hu ⊢
  cases hw : w.conn k.part k.peer k.ix with
  | none =>
    simp only [hw, Option.any_none, Bool.false_eq_true, if_false] at hu
    simp only [← hu, hq]
  | some c =>
    simp only [hw, Option.any_some] at hu
    simp only [← hu, hq]

/-- What a handler of deliver does with the payload is what the command does with the frame. -/
theorem delivered_of {c : TFrame → Instr} {type : Nat} {P : State → TFrame → Conn → List Byte → Prop} {E : State → TFrame → Conn → List Byte → State}
    (htype : type ≠ 2) (hexec : ∀ f s, exec (c f) s = .next (finish s (s.tribReceive type f)))
    (hE : ∀ u f q b, P u f q b → u.deliver q f type b = E u f q b) : Claim.delivered c type P E := by
  intro s u f k q b hears hwindow hnew hctx hu hq hP
  rw [hexec, State.tribReceive_of_hears hears, State.tribOpened_eq_deliver htype hwindow hnew hctx hu hq, hE u f q b hP]

/-- The first frame of a context begins its message. -/
theorem Conn.rxFrame_first {k : Conn} {serial : Nat} (h : k.rx.find serial = none) (type off : Nat) (bs : List Byte) (total : Option Nat) (channel : Nat) (mcast : Bool) :
    k.rxFrame serial type off bs total channel mcast = some (RxMsg.put { type := type, channel := channel, mcast := mcast } off bs total) := by
  simp [Conn.rxFrame, Tab.getD, h]

/-! ## Payloads that the handlers accept -/

theorem haloForm_accepted {b : List Byte} {size : Nat} (hlen : 24 ≤ b.length) (hbytes : (b.drop 24).length = size * field b 20 2)
    (hres : bits (field b 22 2) 13 0 = 0) (hcol : field b 12 2 ≤ 15) (hsome : field b 20 2 ≠ 0 ∨ bit (field b 22 2) 15 = true) :
    ¬ (b.length < 24 ∨ (b.drop 24).length ≠ size * field b 20 2 ∨ bits (field b 22 2) 13 0 ≠ 0 ∨ 15 < field b 12 2 ∨
      ((decide (field b 20 2 = 0) && !bit (field b 22 2) 15) = true)) := by
  have hcounts : (decide (field b 20 2 = 0) && !bit (field b 22 2) 15) = false := by
    obtain h | h := hsome <;> simp [h]
  rintro (h | h | h | h | h)
  · omega
  · exact h hbytes
  · exact h hres
  · omega
  · exact absurd h (by simp [hcounts])

theorem chainForm_accepted {b : List Byte} (hlen : 24 ≤ b.length) (hbytes : (b.drop 24).length = 8 * field b 20 2)
    (hres : bits (field b 22 2) 13 4 = 0) (hop : field b 22 2 % 16 ≤ 3) (hone : 1 ≤ field b 20 2) (hmost : field b 20 2 ≤ 1021) :
    ¬ (b.length < 24 ∨ (b.drop 24).length ≠ 8 * field b 20 2 ∨ bits (field b 22 2) 13 4 ≠ 0 ∨ 3 < field b 22 2 % 16 ∨
      field b 20 2 = 0 ∨ 1021 < field b 20 2) := by
  rintro (h | h | h | h | h | h)
  · omega
  · exact h hbytes
  · exact h hres
  all_goals omega

/-- Before its release a partition takes the ARRIVE of the step it stands at (R306). -/
theorem Part.arriveFits_of_waiting {x : Part} {step : Nat} (hnot : x.released = false) (hstep : step = x.meridian.toNat) : x.arriveFits step = true := by
  rw [hstep, Part.arriveFits]
  cases x.gathered <;> simp [hnot]

/-- The ARRIVE of a child that has not arrived is no fault. -/
theorem arrive_accepted {x : Part} {mpj own step n : Nat} {children : List Nat} (hmpj : mpj = own) (hfits : x.arriveFits step = true)
    (hchild : n ∈ children) (hfresh : ∀ a ∈ x.arrives, a.1 ≠ n) :
    ¬ (mpj ≠ own ∨ (!x.arriveFits step) = true ∨ n ∉ children ∨ (x.arrives.any fun a => decide (a.1 = n) && decide (a.2.2 = step)) = true) := by
  have hnone : (x.arrives.any fun a => decide (a.1 = n) && decide (a.2.2 = step)) = false :=
    List.any_eq_false.mpr fun a ha => by simp [hfresh a ha]
  simp [hmpj, hfits, hchild, hnone]

/-- An OPEN agrees with the BOOT_EPOCH of every other connection to its panel (R312). -/
theorem openEpoch_agrees {conns : List Conn} {peer epoch : Nat} (h : ∀ c ∈ conns, c.peer = peer → c.openGot = true → c.peerEpoch.toNat = epoch) :
    (conns.any fun c => decide (c.peer = peer) && c.openGot && decide (c.peerEpoch.toNat ≠ epoch)) = false :=
  List.any_eq_false.mpr fun c hc => by simpa using h c hc

/-- Settles O51: a frame of each type is delivered by the handler of its type, whose checks the hypotheses exclude. -/
theorem tributaryFramesComplete : Obligations.TributaryFramesComplete := by
  refine ⟨?data, fun wide size off h total => ?halo, fun off total => ?chain, ?abort, fun x r j n => ?arrive, fun x r j n => ?release, ?lost, ?leave,
    fun r j => ?opening, ?ack⟩
  case data =>
    refine delivered_of (by decide) (fun _ _ => rfl) fun u f q b ⟨hlen, hne, hmax, hin, hzero, hrx⟩ => ?_
    have hform : ¬ (b.length < 17 ∨ field b 0 4 = 0 ∨ 16777216 < field b 0 4 ∨ field b 0 4 < field b 4 4 + (b.drop 16).length ∨ (!zeroBytes b 9 7) = true) := by
      simp [hzero, hne]
      simp at hin
      omega
    simp only [State.deliver, State.deliverData, if_neg hform, Conn.rxFrame_first hrx]
  case halo =>
    refine delivered_of (by decide) (fun _ _ => rfl) fun u f q b ⟨hlen, hwide, hsize, hres, hbytes, hcol, hsome, hoff, htotal, hrx, hh⟩ => ?_
    subst hwide hsize hoff htotal hh
    have hform := haloForm_accepted hlen hbytes hres hcol hsome
    simp only [State.deliver, State.deliverHalo, if_neg hform, Conn.rxFrame_first hrx]
  case chain =>
    refine delivered_of (by decide) (fun _ _ => rfl) fun u f q b ⟨hlen, hgoes, hres, hop, hbytes, hone, hmost, hoff, htotal, hrx⟩ => ?_
    subst hoff htotal
    have hform := chainForm_accepted hlen hbytes hres hop hone hmost
    simp only [State.deliver, State.deliverChain, hgoes, Bool.false_eq_true, if_false, if_neg hform, Bool.or_false, Bool.not_false, Bool.true_and,
      Conn.rxFrame_first hrx, Bool.false_and]
  case abort =>
    refine delivered_of (by decide) (fun _ _ => rfl) fun u f q b ⟨hlen, habort, hres, hop, hnum, hrx⟩ => ?_
    have hnone : b.drop 24 = [] := List.drop_eq_nil_of_le hlen.le
    have hform : ¬ (b.length < 24 ∨ 0 ≠ 8 * field b 20 2 ∨ bits (field b 22 2) 13 4 ≠ 0 ∨ 3 < field b 22 2 % 16 ∨ field b 20 2 ≠ 0) := by
      rintro (h | h | h | h | h)
      · omega
      · exact h (by omega)
      · exact h hres
      · omega
      · exact h hnum
    simp only [State.deliver, State.deliverChain, hnone, habort, if_true, if_neg hform, Bool.or_true, Bool.not_true, Bool.false_and, Bool.false_eq_true, if_false,
      Conn.rxFrame_first hrx, Bool.true_and, List.length_nil, Nat.add_zero]
  case arrive =>
    refine delivered_of (by decide) (fun _ _ => rfl) fun u f q b ⟨hx, hrun, hlen, hkind, hz1, hz2, hstep, hmpj, hfrom, hchild, hnot, hfresh⟩ => ?_
    have hform : ¬ (b.length ≠ 32 ∨ 1 < 0 ∨ (!zeroBytes b 13 3) = true ∨ (!zeroBytes b 20 12) = true) := by simp [hlen, hz1, hz2]
    have hforeign := arrive_accepted hmpj (Part.arriveFits_of_waiting hnot (hstep.trans (by simp only [State.meridian, hx]))) hchild hfresh
    simp only [State.deliver, State.deliverBarrier, hx, hrun, hkind, if_true, if_neg hform, hfrom, Option.getD_some, if_neg hforeign]
  case release =>
    refine delivered_of (by decide) (fun _ _ => rfl) fun u f q b ⟨hx, hrun, hlen, hkind, hz1, hz2, hstep, hmpj, hfrom, hroot, hn, hg⟩ => ?_
    have hform : ¬ (b.length ≠ 32 ∨ 1 < 1 ∨ (!zeroBytes b 13 3) = true ∨ (!zeroBytes b 20 12) = true) := by simp [hlen, hz1, hz2]
    have hsame : (decide (field b 0 8 = (u.meridian q.part).toNat) && decide (field b 8 4 = j.mpj.toNat)) = true ∧ u.position j ≠ 0 ∧
        n = (u.position j - 1) / 16 ∧ x.gathered = true := ⟨by simp [hstep, hmpj], hroot, hn, hg⟩
    simp only [State.deliver, State.deliverBarrier, hx, hrun, hkind, if_neg Nat.one_ne_zero, if_neg hform, hfrom, Option.getD_some, if_pos hsame]
  case lost =>
    refine delivered_of (by decide) (fun _ _ => rfl) fun u f q b ⟨hlen, hreason, hzero⟩ => ?_
    have hform : ¬ (b.length ≠ 32 ∨ 3 < field b 4 1 ∨ (!zeroBytes b 5 27) = true) := by
      simp [hlen, hzero]
      omega
    simp only [State.deliver, State.deliverLeave, if_neg hform, if_neg (show field b 4 1 ≠ 3 by omega)]
  case leave =>
    refine delivered_of (by decide) (fun _ _ => rfl) fun u f q b ⟨hlen, hreason, hzero⟩ => ?_
    have hform : ¬ (b.length ≠ 32 ∨ 3 < 3 ∨ (!zeroBytes b 5 27) = true) := by simp [hlen, hzero]
    simp only [State.deliver, State.deliverLeave, hreason, if_neg hform, if_true]
    simp only [Bool.and_eq_true, Bool.not_eq_true']
    rfl
  case opening =>
    refine delivered_of (by decide) (fun _ _ => rfl) fun u f q b ⟨hlen, hzero, hepoch, hrun, hmpj, hpos, hwin, hshare⟩ => ?_
    have hform : ¬ (b.length ≠ 32 ∨ (!zeroBytes b 15 17) = true) := by simp [hlen, hzero]
    have hagrees := openEpoch_agrees hepoch
    have hmatch : ¬ (field b 4 4 ≠ q.mpj.toNat ∨ field b 8 4 ≠ (j.panelList.findIdx? fun n => decide (n = q.peer)).getD 0 ∨ field b 12 2 ≠ q.win ∨
        field b 14 1 ≠ q.share) := by
      simp only [hmpj, hpos, hwin, hshare, ne_eq, not_true_eq_false, or_self, not_false_eq_true]
    simp only [State.deliver, State.deliverOpen, if_neg hform, hagrees, Bool.false_eq_true, if_false, hrun, if_neg hmatch]
    rw [hpos]
  case ack =>
    intro s u v f k b polls hears hack hlen hh hzero hu hpolls hv
    have hform : ¬ (b.length ≠ 32 ∨ 2 ^ 24 ≤ field b 8 4 ∨ (!zeroBytes b 20 12) = true) := by
      rintro (h | h | h)
      · exact h hlen
      · omega
      · simp [hzero] at h
    have hreceive : s.tribReceive 2 f = polls.foldl (fun s f => s.portPoll k.part f.1 f.2) v := by
      rw [State.tribReceive_of_hears hears, hpolls, hv]
      simp only [State.tribOpened, hack, Bool.false_eq_true, if_false, if_true, ← hu, State.takeSack, if_neg hform]
      cases u.conn k.part k.peer k.ix <;> rfl
    exact congrArg (fun t => Host.Outcome.next (finish s t)) hreceive

/-! ## Lock-step messages (R278-R283) -/

/-- A message within the panel is taken off what was sent and goes to its partition. -/
theorem State.lstepIn_eq_takeLstep {s u : State} {f : TFrame} {w : TWire} (hport : f.port = 0xFF)
    (hsent : s.trib.sent.find? (fun w => decide (w.port = 0xFF) && decide (w.type = 8) && decide (w.dstPart = f.dstPart.toNat) &&
      decide (w.srcPart = f.srcPart.toNat) && decide (w.body = f.body)) = some w)
    (hu : u = { s with trib := { s.trib with sent := s.trib.sent.erase w } }) : s.lstepIn f = u.takeLstep w.dstPart w.body := by
  simp only [State.lstepIn, hport, if_true, State.localLstep, hsent, hu]

/-- Settles O52: the kind of the payload picks the message's action on the pairing. -/
theorem lockstepMessagesComplete : Obligations.LockstepMessagesComplete := by
  intro s u f w x pr p hport hsent hp hu hx hpair hmine
  have htake : s.lstepIn f = u.takeLstep p w.body := hp ▸ State.lstepIn_eq_takeLstep hport hsent hu
  have hux : u.part p = some x := hu ▸ hx
  have hcalm : ∀ {c g}, exec c s = .next (finish s (u.updPair p g)) → s.Calm → exec c s = .next (u.updPair p g) := by
    intro c g e hc
    subst hu
    exact exec_calm e hc
  refine ⟨fun hk hsentIt hnot hpairs => ?start, fun hk hnot hc => ?early, fun hk => ?digest, fun hk hpairs => ?freeze, fun hk hc => ?hold, fun hk hc => ?resume⟩
  case start =>
    have hpass : pr.startSent = true ∧ (!pr.started) = true ∧ (u.pairOf p).isSome = true :=
      ⟨hsentIt, by rw [hnot]; rfl, Option.isSome_iff_ne_none.mpr hpairs⟩
    have e : s.lstepIn f = u.compareStart p w.body := by
      rw [htake]
      simp only [State.takeLstep, hux, hpair, hk, if_pos hpass]
    exact congrArg (fun t => Host.Outcome.next (finish s t)) e
  case early =>
    have e : s.lstepIn f = u.updPair p fun q => { q with early := some w.body } := by
      rw [htake]
      simp only [State.takeLstep, hux, hpair, hk, hnot, Bool.false_eq_true, false_and, if_false]
    exact hcalm (congrArg (fun t => Host.Outcome.next (finish s t)) e) hc
  case digest =>
    have e : s.lstepIn f = (State.compareDigests 17
        (u.updPair p fun q => { q with peers := q.peers.set (field w.body 8 8) (BitVec.ofNat 64 (field w.body 16 8)) }) p).tryRelease p := by
      rw [htake]
      simp only [State.takeLstep, hux, hpair, hk, hmine, decide_true, if_true]
    exact congrArg (fun t => Host.Outcome.next (finish s t)) e
  case freeze =>
    have e : s.lstepIn f = u.freeze p (field w.body 8 8) (pr.peers.has (field w.body 8 8)) := by
      rw [htake]
      simp only [State.takeLstep, hux, hpair, hk, hmine, decide_true, Option.isSome_iff_ne_none.mpr hpairs, Bool.and_self, if_true]
    exact congrArg (fun t => Host.Outcome.next (finish s t)) e
  case hold =>
    have e : s.lstepIn f = u.updPair p fun q => { q with peerHeld := true } := by
      rw [htake]
      simp only [State.takeLstep, hux, hpair, hk, hmine, decide_true, if_true]
    exact hcalm (congrArg (fun t => Host.Outcome.next (finish s t)) e) hc
  case resume =>
    have e : s.lstepIn f = u.updPair p fun q => { q with peerHeld := false } := by
      rw [htake]
      simp only [State.takeLstep, hux, hpair, hk, hmine, decide_true, if_true]
    exact hcalm (congrArg (fun t => Host.Outcome.next (finish s t)) e) hc

/-! ## The transport's timers and links -/

theorem State.ackNow_eq (s : State) (part peer ix : Nat) : s.ackNow part peer ix = { s with trib := (s.ackNow part peer ix).trib } := by
  rw [State.ackNow]
  split <;> rfl

theorem State.closeDone_eq (s : State) (part peer ix : Nat) : s.closeDone part peer ix = { s with trib := (s.closeDone part peer ix).trib } := by
  rw [State.closeDone]
  split
  · split <;> rfl
  · rfl

theorem capped_le (a b : Rat) : (if a < b then a else b) ≤ a := by
  split
  · exact le_refl a
  · exact not_lt.mp ‹_›

/-- 500 us after a cut the rate rises by half the way to its target and never above the line rate (R310). -/
theorem Conn.every20us_rises {k : Conn} {ref : Nat} (h : 20000 ≤ (ref - k.lastCut) * 40) :
    (k.every20us ref).rate ≤ k.line ∧ (k.every20us ref).calm = k.calm + 1 ∧ (k.every20us ref).alpha = k.alpha * 15 / 16 := by
  rw [Conn.every20us, if_neg (Nat.not_lt.mpr h)]
  exact ⟨capped_le _ _, rfl, rfl⟩

/-- Settles O53: each timer's guards hold or fail by the hypotheses; the acknowledgement timer, the rate and an advertisement change the transport alone. -/
theorem transportTimersComplete : Obligations.TransportTimersComplete := by
  intro s
  refine ⟨fun p pr hpair hheld => ?pairLost, fun part peer ix seq k t hk ht hfree => ⟨fun hleft => ?again, fun hover => ?lost⟩, fun part peer ix k hc hk hdue => ?ackTimer,
    fun part peer ix hc => ?rate, fun k ref hcut _ _ => Conn.every20us_rises hcut, fun part r j hrun hopen hready => ?opens, fun port hdown => ?portDown,
    fun port target hc hup hon hawake hno htarget => ?solicit, fun port up retrained p u hp hport hon hout hawake hu => ⟨fun hsame hc => ?quietLink, fun hfell => ?link⟩⟩
  case pairLost => simp only [exec, execLsTimeout, hpair, hheld, Bool.false_eq_true, if_false]
  case again => simp only [exec, execRto, hk, ht, hfree, Bool.false_eq_true, if_false, if_neg (Nat.not_le.mpr hleft)]
  case lost => simp only [exec, execRto, hk, ht, hfree, Bool.false_eq_true, if_false, if_pos hover]
  case ackTimer =>
    have e : exec (.tribAckTimer part peer ix) s = .next (finish s ((s.ackNow part peer ix).closeDone part peer ix)) := by
      simp only [exec, execTribAckTimer, hk, if_pos hdue]
    rw [State.closeDone_eq, State.ackNow_eq] at e ⊢
    exact exec_calm e hc
  case rate => exact exec_calm rfl hc
  case opens => simp only [exec, execOpenTimeout, hrun, hopen, hready, Bool.not_false, Bool.and_self, if_true]
  case portDown => simp only [exec, execPortDownTimeout, hdown, Bool.false_eq_true, if_false]
  case solicit =>
    have hpass : ((s.tport port).up && !(s.tport port).disabled && !s.power.inReset && !s.power.deepIdle && s.panelNo.isSome &&
        decide (target = s.addrOf s.panel port)) = true := by
      simp [hup, hon, hawake, hc.up, htarget, Option.isSome_iff_ne_none.mpr hno]
    exact exec_calm (by simp only [exec, execNeighborSolicitation, if_pos hpass]) hc
  case quietLink =>
    subst hp hu
    exact exec_calm (by simp only [exec, execTribLink, hport, hon, hout, hawake, hsame, Bool.not_false, Bool.and_self, if_true, Bool.false_eq_true, if_false]) hc
  case link =>
    subst hp hu
    simp only [exec, execTribLink, hport, hon, hout, hawake, hfell, Bool.not_false, Bool.and_self, if_true]

end Sys2Proof.Machine
end

section
/-! PROOFS. One step, an idle tick, the end of every command, and the panel after reset (O54-O56, O58). -/

namespace Sys2Proof.Machine

/-! ## One step -/

theorem step_of_cons {c : Instr} {rest : List Instr} {s : State} (h : s.pending = c :: rest) : step s = exec c { s with pending := rest } := by
  simp only [step, h]

theorem step_of_nil {s : State} (h : s.pending = []) : step s = .next s.tick := by
  simp only [step, h]

/-- Settles O54: a step is the command at the front of the queue. -/
theorem stepRunsFront : Obligations.StepRunsFront := fun _ _ _ h => step_of_cons h

/-! ## An idle tick (R447, Table 16-2) -/

theorem State.tick_ref (s : State) :
    s.tick.clock.ref = s.clock.ref + (if (s.power.refUp && s.power.auxUp) = true then 400 else 0) ∧
      s.tick.clock.life = s.clock.life + (if (s.power.refUp && s.power.auxUp) = true then 400 else 0) := ⟨rfl, rfl⟩

theorem State.tickTile_stopped {s : State} {die : Nat} (h : (s.diePower die).asleep = true ∨ s.power.inReset = true ∨ s.power.deepIdle = true) :
    s.tickTile die = 0 := by
  rw [State.tickTile, if_pos]
  rcases h with h | h | h <;> simp [h]

theorem State.tickTile_running {s : State} {die : Nat} (hawake : (s.diePower die).asleep = false) (hout : s.power.inReset = false) (hidle : s.power.deepIdle = false) :
    s.tickTile die = (s.fEff die * 16).floor.toNat := by
  rw [State.tickTile, if_neg (by simp [hawake, hout, hidle])]

/-- Settles O55: an empty queue ticks the clocks, each domain by whether it runs. -/
theorem idleTick : Obligations.IdleTick := by
  intro s hempty
  refine ⟨step_of_nil hempty, rfl, fun href haux => ?refRuns, fun haux => ?refStands, fun haux => ?standby, fun _ => State.tickTile_stopped, fun _ => State.tickTile_running⟩
  case refRuns => simpa only [href, haux, Bool.and_self, if_true] using s.tick_ref
  case refStands => simpa only [haux, Bool.and_false, Bool.false_eq_true, if_false, Nat.add_zero] using s.tick_ref
  case standby => exact ⟨by simp only [State.tickCycles, haux, if_true], by simp only [State.tickCycles, haux, if_true]⟩

/-! ## The end of a command -/

/-- The rectangles at the end of a command are those before it, unless a device reset has ended them. -/
theorem finish_geom (s u : State) : (finish s u).geom = s.geom ∨ ((finish s u).geom = [] ∧ (finish s u).power.inReset = true) := by
  rw [finish]
  by_cases h : u.settleAll.power.inReset = true
  · exact .inr ⟨if_pos h, h⟩
  · exact .inl (if_neg h)

/-- A command that ends by finish answers a next state. -/
theorem ends_of_finish (s u : State) : ∃ t : State, (.next (finish s u) : Host.Outcome State Fault Refusal) = .next t ∧ t.pending = s.pending ∧
    t.fuses = s.fuses ∧ (t.geom = s.geom ∨ (t.geom = [] ∧ t.power.inReset = true)) :=
  ⟨_, rfl, finish_pending s u, finish_fuses s u, finish_geom s u⟩

/-- Settles O56: every command but five ends by finish; those five end by finishGeom, which keeps the queue and the fuses. -/
theorem everyCommandEnds : Obligations.EveryCommandEnds := by
  intro c s
  cases c with
  | partCreate f => exact ⟨_, rfl, finishGeom_pending _ _, finishGeom_fuses _ _, fun h => absurd rfl (h f)⟩
  | partDestroy f => exact ⟨_, rfl, finishGeom_pending _ _, finishGeom_fuses _ _, fun _ h => absurd rfl (h f)⟩
  | expSeed => exact ⟨_, rfl, finishGeom_pending _ _, finishGeom_fuses _ _, fun _ _ h => absurd rfl h⟩
  | deepIdleExit => exact ⟨_, rfl, finishGeom_pending _ _, finishGeom_fuses _ _, fun _ _ _ h => absurd rfl h⟩
  | scrubWake => exact ⟨_, rfl, finishGeom_pending _ _, finishGeom_fuses _ _, fun _ _ _ _ h => absurd rfl h⟩
  | _ =>
    obtain ⟨t, hnext, hqueue, hfuses, hgeom⟩ := ends_of_finish s _
    exact ⟨t, hnext, hqueue, hfuses, fun _ _ _ _ _ => hgeom⟩

/-! ## The panel after reset -/

/-- With no bad tile every column of a die has its 13 tiles. -/
theorem Fuses.goodInColumn_of_no_bad {f : Fuses} (h : f.bad = []) (die c : Nat) : f.goodInColumn die c = 13 := by
  simp [Fuses.goodInColumn, h]

/-- With no bad tile the grade is A (R23). -/
theorem Fuses.graded_of_no_bad {f : Fuses} (h : f.bad = []) (hA : f.gradeC = false) : f.graded = true := by
  simp [Fuses.graded, hA, Fuses.goodInColumn_of_no_bad h]

/-- Settles O58: after reset there is no partition, no bad tile, and every memory is empty. -/
theorem resetGeometry : Obligations.ResetGeometry := by
  have hgeom : State.reset.geom = [] := rfl
  have htiles : State.reset.tiles = [] := rfl
  have hbad : State.reset.fuses.bad = [] := rfl
  refine ⟨⟨?shapes, hgeom ▸ .nil, ?few⟩, Fuses.graded_of_no_bad hbad rfl, ⟨?tiles, rfl, rfl⟩, rfl, rfl⟩
  case shapes =>
    rw [hgeom]
    exact fun _ h => nomatch h
  case few =>
    rw [hgeom]
    exact Nat.zero_le 64
  case tiles =>
    rw [htiles]
    exact fun _ h => nomatch h

end Sys2Proof.Machine
end
